-- ==== Sys2Proof/Word.lean ====
section
/-! DEFINITION. The word types of the host port and the index types of the part's tables. -/

namespace Sys2Proof

/-- A 16-bit word of the host window (R162). -/
abbrev Word := BitVec 16

/-- A 48-bit seconds label (R3); its arithmetic wraps modulo 2⁴⁸. -/
abbrev Label := BitVec 48

/-- A byte of a site time message (R191). -/
abbrev Byte := BitVec 8

/-- Reference index 0 to 7 (section 1.9 of 00_scope.md). -/
abbrev Ref := Fin 8

/-- Port index 0 to 11. -/
abbrev Port := Fin 12

/-- Request slot 0 to 15 (R165). -/
abbrev Slot := Fin 16

/-- Sample slot 0 to 31 (R40). -/
abbrev SampleSlot := Fin 32

/-- Alarm code 0 to 18 (R149). -/
abbrev AlarmCode := Fin 19

/-- PPS channel: 0 is PPS-A, 1 is PPS-B. -/
abbrev PpsChannelId := Fin 2

/-- Divider: 0 FRQ-A, 1 FRQ-B, 2 LINE-A, 3 LINE-B. -/
abbrev DividerId := Fin 4

/-- LINE input: 0 is LINE-A, 1 is LINE-B. -/
abbrev LineId := Fin 2

/-- Packet reference: 0 is PKT-A, 1 is PKT-B. -/
abbrev PacketId := Fin 2

/-- AUX capture channel: 0 is AUX-A, 1 is AUX-B. -/
abbrev AuxId := Fin 2

/-- Attention class, in the order of R184: 0 DONE, 1 ALARM, 2 EPOCH, 3 BOARD, 4 SELECT, 5 PORT. -/
abbrev AttnClass := Fin 6

/-- Word address of the host window: 12 lines, the byte offset is twice it (R162). -/
abbrev WordAddr := BitVec 12

end Sys2Proof
end

