-- ==== Sys2Proof/Syntax.lean ====
section
/-! DEFINITION. The commands and events the part takes: one constructor per row of
spec/opcode_table.json. The table gives no operands; each constructor carries what the row's rule
says the event names (which pin, slot or entry, and the word a host access carries). Events handed
between blocks carry nothing: what they carry waits in the State (log entry 1). -/

namespace Sys2Proof

inductive Instr where
  -- resets
  | powerOnReset (warm : BitVec 2) (start : Bool)
  | lineReset
  | exchangeReset
  -- host access
  | hostWrite (addr : WordAddr) (value : Word)
  | readRecordFirstWord (addr : WordAddr)
  | readLatchedWord (addr : WordAddr)
  -- timescale
  | oscInCycle
  | secondBoundary
  | warmUpEnd
  | negativeStepHoldEnd
  -- reference inputs
  | ppsChannelBoundary (c : PpsChannelId)
  | ppsLeadingEdge (c : PpsChannelId)
  | ppsTrailingEdge (c : PpsChannelId)
  | windowClose (c : PpsChannelId)
  | dividerEdge (d : DividerId)
  | dividerBoundary (d : DividerId)
  | marker (d : DividerId)
  | missingTimerExpiry (d : DividerId)
  | lineOkChangeCapture (l : LineId) (level : Bool)
  | lineOkChangeQsu (l : LineId) (level : Bool)
  | auxLeadingEdge (a : AuxId)
  -- packet references
  | sampleReady (n : SampleSlot)
  | packetEvaluation
  -- qualification and selection
  | measurementArrival (r : Ref)
  | jumpVerdict
  -- steering loop
  | loopSelectionChange
  | forwardedMeasurement
  | unusableNotice
  | loopStepOrder
  | loopStateChangeTsu
  | lpuBoundary
  -- holdover
  | historyFeed
  | uncertaintyValue
  | guardPopNotice
  | loopStateChangeHou
  | houBoundary
  | intervalEnd
  -- ports
  | ptuBoundaryWork
  | periodBegin (p : Port)
  | portEdge (p : Port)
  | siteTimeMessage (p : Port)
  -- cable delay measurement
  | periodNotice (a : AuxId)
  | windowTimerExpiry (a : AuxId)
  | measurementInterrupted (a : AuxId)
  -- alarms
  | conditionChange (code : AlarmCode)
  | aluBoundary
  | raiseDelayExpiry (code : AlarmCode)
  | clearDelayExpiry (code : AlarmCode)
  | alarmAck (code : AlarmCode) (value : Word)
  -- exchange
  | epochReport
  | requestPosted (n : Slot)
  | requestSlotFree (n : Slot)
  | requestTake
  -- requests, taken by their owner
  | configureReference
  | setPriority
  | declareReference
  | selectMode
  | holdoverControl
  | configureLoop
  | configureHoldover
  | clearHistory
  | setTime
  | stepPhase
  | scheduleLeap
  | configurePort
  | measurePortDelay
  | configureAlarm
  -- attention
  | attentionAck (c : AttnClass) (value : Word)
  | attentionRoute (c : AttnClass) (value : Word)
  deriving DecidableEq, Repr

end Sys2Proof
end

