-- ==== Sys2Proof/Decode.lean ====
section
/-! DEFINITION. The decoder of command words. spec/opcode_table.json gives no row any bits (its rows
have no "fixed" and no "fields"), so no word spells a command: every word is refused. -/

namespace Sys2Proof

/-- The command an `nbits`-bit word spells: none, since no row of the table has an encoding. -/
def decodeTableWord (_nbits _w : Nat) : Option Instr := none

end Sys2Proof
end

