-- ==== Sys2Proof/Config.lean ====
section
/-! DEFINITION. The constants the manual fixes, and the free values it leaves open. -/

namespace Sys2Proof.Config

/-- Picoseconds in a second of the timescale (R5). -/
abbrev psPerSecond : Nat := 1000000000000

/-- The half-point of a second, in ps (R22). -/
abbrev halfPoint : Nat := 500000000000

/-- The capture and emission grid, in ps (R3). -/
abbrev grid : Nat := 125

/-- Parts of a picosecond in which the residue is kept: F ÷ 10,000,000 is exact in them (R4). -/
abbrev residueUnit : Nat := 10000000

/-- What one OSC-IN cycle adds before steering, in residue units: 100,000 ps (R4). -/
abbrev cycleUnits : Nat := 1000000000000

/-- Bound of every compensation, in ps (R27, R51, R120). -/
abbrev compensationBound : Nat := 200000000

/-- Largest magnitude of a phase step and of the pseudo-phase, in ps (R11, R86, R94). -/
abbrev stepBound : Nat := 500000000000

/-- U_max (R112). -/
abbrev uMax : Nat := 999999999999

/-- Class 0 limit of R113, in ps. -/
abbrev class0Limit : Nat := 100000

/-- Full period of a divider's missing timer (R31). -/
abbrev missingPeriod : Nat := 1500000000000

/-- Length of a delay measurement's return window (R142). -/
abbrev returnWindow : Nat := 100000000

/-- Spread bound of R144, in ps. -/
abbrev spreadBound : Nat := 10000

/-- Entries the step log holds (R13). -/
abbrev stepLogSize : Nat := 4

/-- Entries a packet window holds (R44). -/
abbrev windowSize : Nat := 16

/-- The fixed outlier limit (R88). -/
abbrev outlierLimit : Nat := 3

/-- Saturation of the 16-bit counts (R45, R101, R154). -/
abbrev count16Max : Nat := 65535

/-- Saturation of the holdover clock (R101). -/
abbrev clockMax : Nat := 4294967295

/-- Offset of the site time message from the leading edge (R127). -/
abbrev messageOffset : Nat := 20000000000

/-- FREE VALUE. How a signed figure outside the range of its two-word field is written: R181 fixes
saturation for ppt only, and says nothing for a time in ps (log entry 15). -/
opaque unencodable32 : Int → BitVec 32

/-- FREE VALUE. The same for a three-word field (log entry 15). -/
opaque unencodable48 : Int → BitVec 48

end Sys2Proof.Config
end

