-- ==== Sys2Proof/Machine/State.lean ====
section
/-! DEFINITION. The state of the part as plain data: one structure per block of section 1.3, the
queues of events handed between blocks, and the state right after a power-on reset. -/

namespace Sys2Proof.Machine

open Config

/-- No command of the part faults: an unserved offset reads 0 and discards writes (R162), and a bad
request completes INVALID (R183). The type has no constructor (log entry 34). -/
inductive Fault
  deriving DecidableEq, Repr

/-- Why a command has no meaning. -/
inductive Refusal where
  /-- Raised by exec's arm of a command that has no meaning yet, and by nothing else. Safe: the
  machine stops where the hardware goes on. -/
  | notModelled (mnemonic : String)
  deriving DecidableEq, Repr

/-! ### Shared small types -/

/-- A timescale instant, or an instant the host posts: a label and a picosecond field (section 1.6 of
00_scope.md; a host-posted field may reach 2⁴⁸ − 1, R186). -/
structure Instant where
  label : Label
  ps : Nat
  deriving DecidableEq, Repr

inductive LeapKind where
  | insert | delete
  deriving DecidableEq, Repr

inductive StepOrigin where
  | host | loop
  deriving DecidableEq, Repr

inductive LoopState where
  | freeRun | acquire | track | assisted | holdover
  deriving DecidableEq, Repr

inductive RefKind where
  | pps | frq | line | pkt
  deriving DecidableEq, Repr

inductive RefState where
  | disabled | qualifying | qualified | faulted
  deriving DecidableEq, Repr

/-- Fault causes; a judged outcome is `none` for clean or one of these (R60). -/
inductive Cause where
  | missing | spurious | width | range | delay | tolerancePhase | toleranceFreq
  | jump | declared | loss
  deriving DecidableEq, Repr

inductive RawOutcome where
  | clean | spurious | width | missing | range | delay
  deriving DecidableEq, Repr

inductive PortState where
  | off | squelched | running
  deriving DecidableEq, Repr

/-- Completion codes of R182, from 1 on. -/
inductive Completion where
  | ok | adjusted | superseded | busy | invalid | notPermitted | noReturn | unstable
  | interrupted | missed
  deriving DecidableEq, Repr

/-- What the boundary that begins second N delivers to each block (R5). `endedLabel`, `second` and
`setTime` are the model's own: the label of the second that ended, the ordinal of second N (log
entries 5, 7), and whether the boundary applied a SET-TIME, which R47 has the PKU act on. -/
structure Boundary where
  label : Label
  endedLabel : Label
  second : Nat
  repeated : Bool
  timeSet : Bool
  setTime : Bool
  leap : Option LeapKind
  warmUp : Bool
  step : Option (Int × StepOrigin)
  deriving DecidableEq, Repr

/-! ### Timescale unit -/

structure PendingSetTime where
  label : Label
  slot : Slot
  deriving DecidableEq, Repr

inductive PendingStep where
  | host (s : Int) (slot : Slot)
  | loop (s : Int)
  deriving DecidableEq, Repr

structure ScheduledLeap where
  target : Label
  kind : LeapKind
  slot : Slot
  deriving DecidableEq, Repr

/-- A step log entry (R13); `entry` is its place in the order of entry (log entry 7). -/
structure LoggedStep where
  label : Label
  step : Int
  entry : Nat
  deriving DecidableEq, Repr

/-- The hold of a negative phase step (R10): `length` is |s|, `run` what has been counted. -/
structure Hold where
  length : Nat
  run : Nat
  deriving DecidableEq, Repr

/-- The timescale unit (01_the_timescale.md). -/
structure Tsu where
  label : Label
  frac : Nat
  residue : Nat
  freq : Int
  /-- The second is complete and its boundary is to be taken; the value is the overshoot (R5). -/
  due : Option Nat
  hold : Option Hold
  repeated : Bool
  timeSet : Bool
  setTime : Option PendingSetTime
  step : Option PendingStep
  leap : Option ScheduledLeap
  stepLog : List LoggedStep
  warmCount : Nat
  warmStrap : BitVec 2
  startStrap : Bool
  /-- Model: ordinal of the current second since reset (log entry 7). -/
  second : Nat
  /-- Model: label of the second before the current one (log entry 28). -/
  prevLabel : Label
  /-- Model: how many steps have been entered in the log (log entry 7). -/
  logged : Nat
  /-- Model: phase step applied at the boundary that began the current second. -/
  secondStep : Int
  /-- Model: fraction at which a positive step started the current second, else 0. -/
  skipTo : Nat
  deriving DecidableEq, Repr

/-! ### Capture unit -/

/-- A stamp of a capture record (R21, R23). -/
structure Stamp where
  at_ : Instant
  held : Bool
  /-- Taken after the channel took the window's boundary. -/
  after : Bool
  deriving DecidableEq, Repr

/-- A capture record of an open window (R23), with the window's boundary once taken (R24). -/
structure CaptureRecord where
  first : Option Stamp
  trail : Option Stamp
  count : Nat
  bnd : Option Boundary
  deriving DecidableEq, Repr

/-- A PPS channel's window (R22): none kept, waiting for the half-point of the second with this
ordinal, or open. -/
inductive PpsWindow where
  | idle
  | waiting (second : Nat)
  | opened (r : CaptureRecord)
  deriving DecidableEq, Repr

/-- The measurement before: its phase error and whether it was CLEAN (R26, R50). -/
structure PrevPhase where
  e : Option Int
  clean : Bool
  deriving DecidableEq, Repr

structure PpsChannel where
  window : PpsWindow
  prev : Option PrevPhase
  detailOffset : Option Int
  detailEdges : Nat
  detailWidth : Option Int
  deriving DecidableEq, Repr

inductive DividerState where
  | idle | loading | counting
  deriving DecidableEq, Repr

/-- An open interval chain (R29). `note` is how many log entries had been entered when its marker was
taken (R13), `fresh` says its first measurement is still to come (R32). -/
structure Chain where
  opening : Instant
  boundaries : Nat
  span : Nat
  note : Nat
  fresh : Bool
  deriving DecidableEq, Repr

structure Divider where
  state : DividerState
  count : Nat
  chain : Option Chain
  timer : Option Nat
  detailInterval : Option Int
  detailSpan : Option Nat
  deriving DecidableEq, Repr

/-- The capture unit (02_reference_inputs.md). -/
structure Cap where
  pps : Vector PpsChannel 2
  div : Vector Divider 4
  lineOk : Vector Bool 2
  deriving DecidableEq, Repr

/-- A raw measurement (R35, R49). -/
structure RawMeas where
  ref : Ref
  label : Label
  repeated : Option Bool
  outcome : RawOutcome
  e : Option Int
  delta : Option Int
  span : Option Nat
  newChain : Bool
  edges : Nat
  width : Option Int
  interval : Option Int
  minDelay : Option Int
  inSpan : Nat
  accepted : Nat
  rejected : Nat
  deriving DecidableEq, Repr

/-! ### Packet unit -/

inductive SampleState where
  | empty | ready
  deriving DecidableEq, Repr

inductive Verdict where
  | none_ | accepted | badRef | badField | order | range | negative | stale | future | duplicate
  deriving DecidableEq, Repr

/-- A sample slot (R40); `words` are its host words 6 to 29 (R186). -/
structure Sample where
  state : SampleState
  ref : Word
  verdict : Verdict
  takeLabel : Label
  words : Vector Word 24
  deriving DecidableEq, Repr

/-- A window entry (R44) with the two marks of the last evaluation the readout shows (R54). -/
structure WindowEntry where
  t1 : Instant
  t2 : Instant
  t3 : Instant
  t4 : Instant
  o : Int
  d : Int
  label : Label
  inSpan : Bool
  chosen : Bool
  deriving DecidableEq, Repr

/-- The chosen sample as the packet detail keeps it (R50). -/
structure ChosenSample where
  t2 : Instant
  o : Int
  d : Int
  deriving DecidableEq, Repr

structure PacketRef where
  window : List WindowEntry
  prev : Option PrevPhase
  accepted : Nat
  rejected : Nat
  lastAccepted : Nat
  lastRejected : Nat
  lastInSpan : Nat
  lastChosen : Option ChosenSample
  deriving DecidableEq, Repr

/-- The packet unit (03_packet_references.md). -/
structure Pku where
  board : Vector Sample 32
  refs : Vector PacketRef 2
  stepMark : Option Label
  label : Label
  repeated : Bool
  deriving DecidableEq, Repr

/-! ### Qualification and selection unit -/

/-- Configuration fields of a reference (R55). -/
structure RefConfig where
  enabled : Bool
  priority : Nat
  compensation : Int
  accuracy : Nat
  wMin : Nat
  wMax : Nat
  nominal : Nat
  gross : Nat
  span : Nat
  delayLimit : Nat
  phaseTol : Nat
  freqTol : Nat
  qualifyTime : Nat
  dwell : Nat
  badLimit : Nat
  deriving DecidableEq, Repr

/-- The last measurement the QSU judged (R61). -/
structure LastMeas where
  label : Label
  repeated : Bool
  raw : RawOutcome
  judged : Option Cause
  e : Option Int
  delta : Option Int
  span : Option Nat
  newChain : Bool
  minDelay : Option Int
  deriving DecidableEq, Repr

structure RefEntry where
  cfg : RefConfig
  declaredValid : Bool
  state : RefState
  cause : Option Cause
  qualifyCount : Nat
  badCount : Nat
  dwellCount : Nat
  last : Option LastMeas
  deriving DecidableEq, Repr

/-- The qualification and selection unit (04_qualification_and_selection.md). -/
structure Qsu where
  refs : Vector RefEntry 8
  selected : Option Ref
  revertive : Bool
  forced : Option Ref
  forcedHoldover : Bool
  forceIneffective : Bool
  lineOk : Vector Bool 2
  deriving DecidableEq, Repr

/-! ### Steering loop -/

inductive StepPolicy where
  | never | firstLock | always
  deriving DecidableEq, Repr

/-- Loop configuration (R98). -/
structure LoopConfig where
  acqP : Nat
  acqI : Nat
  trackP : Nat
  trackI : Nat
  stepThreshold : Nat
  unlockThreshold : Nat
  lockThreshold : Nat
  lockLimit : Nat
  unlockLimit : Nat
  fLimit : Nat
  policy : StepPolicy
  deriving DecidableEq, Repr

/-- The steering loop (R78). `followed` is the reference the loop holds as selected (R84, log
entry 31). -/
structure Lpu where
  state : LoopState
  integral : Int
  lockCount : Nat
  unlockCount : Nat
  outliers : Nat
  firstLockSpent : Bool
  stepPending : Bool
  pseudo : Option Int
  lastE : Option Int
  lastX : Option Int
  lastP : Option Int
  warmHold : Bool
  freqLimit : Bool
  noReference : Bool
  freeRunning : Bool
  followed : Option Ref
  cfg : LoopConfig
  deriving DecidableEq, Repr

/-! ### Holdover unit -/

/-- Holdover configuration (R116). -/
structure HoldConfig where
  interval : Nat
  guards : Nat
  fixedAging : Bool
  dCfg : Int
  dMax : Nat
  yHold : Nat
  aging : Nat
  yAssist : Nat
  uAlarm : Nat
  ready : Nat
  deriving DecidableEq, Repr

/-- The holdover unit (R101). Level L1 stands first. `ended` is the model's own: an interval has ended,
its position is back at 0, and its INTERVAL_END is still to be taken (R102, R103, log entry 8). -/
structure Hou where
  levels : Vector Int 8
  fill : Nat
  sum : Int
  count : Nat
  position : Nat
  ended : Bool
  dLearn : Option Int
  dHold : Int
  fBase : Int
  clock : Nat
  uEntry : Nat
  u : Nat
  quality : Nat
  loop : LoopState
  budget : Bool
  notReady : Bool
  cfg : HoldConfig
  deriving DecidableEq, Repr

/-- The boundary values of a second (R113). -/
structure HouValues where
  u : Nat
  quality : Nat
  deriving DecidableEq, Repr

/-! ### Port unit -/

inductive PortMode where
  | off | pulse | frequency | timecode
  deriving DecidableEq, Repr

inductive Polarity where
  | normal | inverted
  deriving DecidableEq, Repr

inductive SquelchPolicy where
  | runAlways | onBudget | unlocked
  deriving DecidableEq, Repr

/-- A pin level; also the squelch level (R120, R122). -/
inductive PinLevel where
  | low | high | highZ
  deriving DecidableEq, Repr

/-- A settings record (R120). -/
structure PortSettings where
  mode : PortMode
  polarity : Polarity
  compensation : Int
  width : Nat
  freq : Nat
  baud : Nat
  policy : SquelchPolicy
  limit : Nat
  level : PinLevel
  deriving DecidableEq, Repr

inductive StagingOrigin where
  | request (slot : Slot)
  | measurement
  deriving DecidableEq, Repr

structure Staged where
  settings : PortSettings
  origin : StagingOrigin
  clamped : Bool
  deriving DecidableEq, Repr

/-- A site time message once fixed (R135): its label and its 14 bytes. -/
structure SiteMessage where
  label : Label
  bytes : List Byte
  deriving DecidableEq, Repr

/-- A period plan (R124): the settings it was armed with and the ordinal of its second. -/
structure Plan where
  settings : PortSettings
  second : Nat
  message : Option SiteMessage
  deriving DecidableEq, Repr

/-- The period in progress: the next edge, and the next bit of the message (141 when none is left,
log entry 23). -/
structure Progress where
  plan : Plan
  edge : Nat
  bit : Nat
  deriving DecidableEq, Repr

/-- A port table entry (R119) and its pin (R122). -/
structure PortEntry where
  active : PortSettings
  staged : Option Staged
  state : PortState
  armed : List Plan
  progress : Option Progress
  measuring : Option AuxId
  lastEdge : Option Instant
  lastMessage : Option Label
  pin : PinLevel
  deriving DecidableEq, Repr

/-- A sample R_k (R139). -/
inductive RoundTrip where
  | notTaken
  | missing
  | value (r : Int)
  deriving DecidableEq, Repr

/-- An open return window (R142): its start E_k, the ordinal of the second E_k lies in, and what its
timer has left to count, which is below 0 once the timescale has run past the window's end (log
entry 47). -/
structure ReturnWindow where
  start : Instant
  second : Nat
  timer : Int
  deriving DecidableEq, Repr

/-- What the PTU hands a measurement in flight (R138): a period notice with the instant of the
leading edge and the ordinal of its second, or none; or the notice that the port left RUNNING. -/
inductive MeasNotice where
  | period (lead : Option (Instant × Nat))
  | leftRunning
  deriving DecidableEq, Repr

/-- A measurement record (R139) with the notices handed to it and not yet taken. -/
structure DelayMeas where
  port : Port
  farEnd : Int
  apply : Bool
  slot : Slot
  k : Nat
  window : Option ReturnWindow
  samples : Vector RoundTrip 8
  notices : List MeasNotice
  deriving DecidableEq, Repr

/-- The port unit (07_output_ports.md, 08_cable_delay_measurement.md). An AUX channel is claimed
exactly when its record exists (R139, R141). -/
structure Ptu where
  ports : Vector PortEntry 12
  meas : Vector (Option DelayMeas) 2
  squelched : Bool
  delayFailed : Bool
  deriving DecidableEq, Repr

/-! ### Alarm unit -/

inductive Severity where
  | critical | major | minor | warning
  deriving DecidableEq, Repr

inductive AlarmState where
  | clear | raising | raised | clearing
  deriving DecidableEq, Repr

/-- An alarm table entry (R148). -/
structure AlarmEntry where
  severity : Severity
  mask : Bool
  raiseDelay : Nat
  clearDelay : Nat
  condition : Bool
  state : AlarmState
  count : Nat
  acked : Bool
  raises : Nat
  stamp : Word
  lastChange : Option Label
  ackWord : Word
  deriving DecidableEq, Repr

/-- The alarm unit (09_alarms.md); a pin field is true when the pin is asserted (R155). -/
structure Alu where
  entries : Vector AlarmEntry 19
  critPin : Bool
  majPin : Bool
  minPin : Bool
  deriving DecidableEq, Repr

/-! ### Exchange unit -/

inductive SlotState where
  | free | posted | taken | done
  deriving DecidableEq, Repr

/-- A request slot (R168); `code` is the completion code word. -/
structure RequestSlot where
  state : SlotState
  kind : Word
  tag : Word
  code : Word
  label : Label
  params : Vector Word 24
  deriving DecidableEq, Repr

inductive Route where
  | none_ | inta | intb
  deriving DecidableEq, Repr

/-- An attention class (R172). -/
structure Attention where
  pending : Bool
  count : Word
  ack : Word
  route : Route
  deriving DecidableEq, Repr

/-- A latchable record (R175). -/
inductive RecordId where
  | refStatus (r : Ref)
  | loopStatus
  | portStatus (p : Port)
  | alarm (code : AlarmCode)
  | page (p : Fin 2)
  | readout (k : PacketId)
  deriving DecidableEq, Repr

/-- The held copy of the record latch (R176). -/
structure LatchCopy where
  record : RecordId
  words : List Word
  deriving DecidableEq, Repr

/-- An epoch report (R179). -/
structure Report where
  number : Word
  bnd : Boundary
  loop : LoopState
  selected : Option Ref
  freq : Int
  integral : Int
  lastE : Option Int
  values : HouValues
  fill : Nat
  aging : Int
  refs : Vector (RefState × Option Cause) 8
  ports : Vector PortState 12
  critPin : Bool
  majPin : Bool
  minPin : Bool
  deriving DecidableEq, Repr

/-- The exchange unit (10_the_exchange_memory_and_requests.md). `unit` is the request the request
unit holds; an interrupt line field is true when the line is asserted (R174). -/
structure Xu where
  slots : Vector RequestSlot 16
  queue : List Slot
  unit : Option Slot
  attn : Vector Attention 6
  inta : Bool
  intb : Bool
  latch : Option LatchCopy
  pages : Vector (Option Report) 2
  deriving DecidableEq, Repr

/-! ### Events handed between blocks and not yet taken (log entry 1) -/

inductive LoopEvent where
  | selection (prev new : Option Ref) (fault : Bool)
  | forwarded (ref : Ref) (label : Label) (e : Option Int) (delta : Option Int)
      (span : Option Nat) (newChain : Bool)
  | unusable (ref : Ref) (label : Label) (judged : Cause)
  deriving DecidableEq, Repr

inductive TsuEvent where
  | step (s : Int)
  | state (before after : LoopState)
  deriving DecidableEq, Repr

inductive HouEvent where
  | feed (f : Int)
  | uncertainty (u : Nat)
  | guardPop
  | state (before after : LoopState) (integral : Int)
  deriving DecidableEq, Repr

structure CondChange where
  code : AlarmCode
  present : Bool
  deriving DecidableEq, Repr

structure Wires where
  ppsBnd : Vector (List Boundary) 2
  divBnd : Vector (List Boundary) 4
  pkuBnd : List Boundary
  lpuBnd : List Boundary
  houBnd : List Boundary
  ptuBnd : List Boundary
  aluBnd : List Boundary
  xuBnd : List Boundary
  ptuValues : List HouValues
  xuValues : List HouValues
  xuPorts : List (Vector PortState 12)
  arrivals : List RawMeas
  verdicts : List Ref
  loopIn : List LoopEvent
  tsuIn : List TsuEvent
  houIn : List HouEvent
  conds : List CondChange
  warmEnd : Bool
  deriving DecidableEq, Repr

/-- The whole part. `readData` is the word the last host read returned (R162); `pending` is the
queue of commands. -/
structure State where
  tsu : Tsu
  cap : Cap
  pku : Pku
  qsu : Qsu
  lpu : Lpu
  hou : Hou
  ptu : Ptu
  alu : Alu
  xu : Xu
  wires : Wires
  readData : Word
  pending : List Instr
  deriving DecidableEq, Repr

/-! ### Reset values -/

/-- Kind of a reference by its index (section 1.9 of 00_scope.md). -/
def refKind (r : Ref) : RefKind :=
  if r.val < 2 then .pps else if r.val < 4 then .frq else if r.val < 6 then .line else .pkt

/-- Default configuration of a reference (R55, R56, R25, R28, R30, R51). Fields that do not apply to
the kind take the values of the kind they belong to (log entry 22). -/
def defaultRefConfig (r : Ref) : RefConfig where
  enabled := false
  priority := (#v[1, 2, 5, 6, 7, 8, 3, 4] : Vector Nat 8)[r]
  compensation := 0
  accuracy := match refKind r with | .pps => 100000 | .pkt => 200000 | _ => 0
  wMin := 100000
  wMax := 900000000000
  nominal := match refKind r with | .line => 25000000 | _ => 10000000
  gross := 20000000
  span := 2
  delayLimit := 10000000000
  phaseTol := 500000
  freqTol := match refKind r with | .pps => 100000 | .pkt => 200000 | _ => 2000
  qualifyTime := match refKind r with | .pps => 60 | .pkt => 120 | _ => 30
  dwell := 10
  badLimit := 2

/-- Default loop configuration (R98). -/
def defaultLoopConfig : LoopConfig where
  acqP := 2
  acqI := 6
  trackP := 6
  trackI := 13
  stepThreshold := 1000000
  unlockThreshold := 500000
  lockThreshold := 50000
  lockLimit := 10
  unlockLimit := 10
  fLimit := 10000000
  policy := .firstLock

/-- Default holdover configuration (R116). -/
def defaultHoldConfig : HoldConfig where
  interval := 300
  guards := 1
  fixedAging := false
  dCfg := 0
  dMax := 5000
  yHold := 1000
  aging := 5000
  yAssist := 10
  uAlarm := 1100000
  ready := 2

/-- Default settings record of a port (R120). -/
def defaultSettings : PortSettings where
  mode := .off
  polarity := .normal
  compensation := 0
  width := 100000
  freq := 10000000
  baud := 9600
  policy := .onBudget
  limit := 1100000
  level := .low

/-- Default severity of an alarm entry (R149). -/
def defaultSeverity (c : AlarmCode) : Severity :=
  match c.val with
  | 8 | 10 | 11 | 13 => .major
  | 9 | 14 => .critical
  | 12 | 15 | 16 | 18 => .warning
  | _ => .minor

/-- An alarm entry after a power-on or line reset (R148, R149). -/
def resetAlarm (c : AlarmCode) : AlarmEntry where
  severity := defaultSeverity c
  mask := false
  raiseDelay := if c.val < 8 then 2 else 0
  clearDelay := 10
  condition := false
  state := .clear
  count := 0
  acked := false
  raises := 0
  stamp := 0
  lastChange := none
  ackWord := 0

def resetRef (r : Ref) : RefEntry where
  cfg := defaultRefConfig r
  declaredValid := true
  state := .disabled
  cause := none
  qualifyCount := 0
  badCount := 0
  dwellCount := 0
  last := none

/-- A FREE slot with every word zero (R164, R180). -/
def freeSlot : RequestSlot := ⟨.free, 0, 0, 0, 0, Vector.replicate 24 0⟩

/-- An EMPTY sample slot with every field zero and verdict NONE (R53). -/
def emptySample : Sample := ⟨.empty, 0, .none_, 0, Vector.replicate 24 0⟩

/-- An attention class with count 0, pending clear, ack word 0 and route none (R180). -/
def clearAttention : Attention := ⟨false, 0, 0, .none_⟩

def resetPacketRef : PacketRef := ⟨[], none, 0, 0, 0, 0, 0, none⟩

def resetPort : PortEntry where
  active := defaultSettings
  staged := none
  state := .off
  armed := []
  progress := none
  measuring := none
  lastEdge := none
  lastMessage := none
  pin := .highZ

def resetTsu : Tsu where
  label := 0
  frac := 0
  residue := 0
  freq := 0
  due := none
  hold := none
  repeated := false
  timeSet := false
  setTime := none
  step := none
  leap := none
  stepLog := []
  warmCount := 0
  warmStrap := 0
  startStrap := false
  second := 0
  prevLabel := 0
  logged := 0
  secondStep := 0
  skipTo := 0

def resetCap : Cap where
  pps := Vector.replicate 2 ⟨.idle, none, none, 0, none⟩
  div := Vector.replicate 4 ⟨.idle, 0, none, none, none, none⟩
  lineOk := Vector.replicate 2 false

def resetPku : Pku where
  board := Vector.replicate 32 emptySample
  refs := Vector.replicate 2 resetPacketRef
  stepMark := none
  label := 0
  repeated := false

def resetQsu : Qsu where
  refs := Vector.ofFn resetRef
  selected := none
  revertive := false
  forced := none
  forcedHoldover := false
  forceIneffective := false
  lineOk := Vector.replicate 2 false

def resetLpu : Lpu where
  state := .freeRun
  integral := 0
  lockCount := 0
  unlockCount := 0
  outliers := 0
  firstLockSpent := false
  stepPending := false
  pseudo := none
  lastE := none
  lastX := none
  lastP := none
  warmHold := false
  freqLimit := false
  noReference := false
  freeRunning := false
  followed := none
  cfg := defaultLoopConfig

def resetHou : Hou where
  levels := Vector.replicate 8 0
  fill := 0
  sum := 0
  count := 0
  position := 0
  ended := false
  dLearn := none
  dHold := 0
  fBase := 0
  clock := 0
  uEntry := uMax
  u := uMax
  quality := 3
  loop := .freeRun
  budget := false
  notReady := false
  cfg := defaultHoldConfig

def resetPtu : Ptu where
  ports := Vector.replicate 12 resetPort
  meas := Vector.replicate 2 none
  squelched := false
  delayFailed := false

def resetAlu : Alu where
  entries := Vector.ofFn resetAlarm
  critPin := false
  majPin := false
  minPin := false

def resetXu : Xu where
  slots := Vector.replicate 16 freeSlot
  queue := []
  unit := none
  attn := Vector.replicate 6 clearAttention
  inta := false
  intb := false
  latch := none
  pages := Vector.replicate 2 none

/-- No event is waiting. -/
def noWires : Wires where
  ppsBnd := Vector.replicate 2 []
  divBnd := Vector.replicate 4 []
  pkuBnd := []
  lpuBnd := []
  houBnd := []
  ptuBnd := []
  aluBnd := []
  xuBnd := []
  ptuValues := []
  xuValues := []
  xuPorts := []
  arrivals := []
  verdicts := []
  loopIn := []
  tsuIn := []
  houIn := []
  conds := []
  warmEnd := false

/-- Right after a power-on reset with WARM1:0 = 0 and START = 0 (log entry 10): every block at its
reset value (R18, R22, R34, R53, R56, R70, R78, R101, R119, R139, R148, R180), and the one condition
that R160 names as present, TIME-NOT-SET, handed to the ALU. -/
def State.reset : State where
  tsu := resetTsu
  cap := resetCap
  pku := resetPku
  qsu := resetQsu
  lpu := resetLpu
  hou := resetHou
  ptu := resetPtu
  alu := resetAlu
  xu := resetXu
  wires := { noWires with conds := [⟨13, true⟩] }
  readData := 0
  pending := []

end Sys2Proof.Machine
end

