-- ==== Sys2Proof/Machine/Ops.lean ====
section
/-! DEFINITION. Shared operations: the manual's rounding and clamping, instants and readings, table
updates, and the named updates of State. -/

namespace Sys2Proof.Machine

open Config

/-! ### Arithmetic (section 1.8 of 00_scope.md) -/

/-- `n / d` rounded to the nearest integer, halves away from zero (R2). -/
def roundDiv (n : Int) (d : Nat) : Int :=
  if 0 ≤ n then (2 * n + d) / (2 * d) else -((2 * (-n) + d) / (2 * d))

/-- Division by a power of two, rounded as R2 says. -/
def roundShift (x : Int) (k : Nat) : Int := roundDiv x (2 ^ k)

/-- A clamp to ±b (section 1.8 of 00_scope.md). -/
def clampAbs (x : Int) (b : Nat) : Int := max (-(b : Int)) (min (b : Int) x)

/-- A count that saturates at `m`. -/
def satSucc (x m : Nat) : Nat := min (x + 1) m

/-- Rounded down to the 125 ps grid (R3). -/
def onGrid (ps : Nat) : Nat := ps / grid * grid

/-- A signed offset rounded down to the 125 ps grid (R124). -/
def floorGrid (x : Int) : Int := x / (grid : Int) * (grid : Int)

/-- A signed offset rounded up to the 125 ps grid. -/
def ceilGrid (x : Int) : Int := -(floorGrid (-x))

/-- The exact difference a − b of two instants in ps, the labels' difference modulo 2⁴⁸ read as
signed (R3). A label difference of exactly 2⁴⁷ has no sign in R3: it is read as −2⁴⁷, whichever way
the two are subtracted, as two's complement reads it (log entry 43). -/
def instDiff (a b : Instant) : Int :=
  (psPerSecond : Int) * (a.label - b.label).toInt + ((a.ps : Int) - (b.ps : Int))

/-! ### Tables -/

/-- Entry `i` of a table replaced by its image. -/
def updAt {α : Type} {n : Nat} (v : Vector α n) (i : Fin n) (f : α → α) : Vector α n :=
  v.set i (f v[i])

/-- The first element that satisfies `p`, and the list without it. -/
def takeFirst {α : Type} (p : α → Bool) : List α → Option (α × List α)
  | [] => none
  | x :: xs =>
    if p x then some (x, xs)
    else match takeFirst p xs with
      | none => none
      | some (y, ys) => some (y, x :: ys)

/-! ### Named updates of State, one per block -/

def State.setTsu (s : State) (t : Tsu) : State := { s with tsu := t }
def State.setCap (s : State) (c : Cap) : State := { s with cap := c }
def State.setPku (s : State) (p : Pku) : State := { s with pku := p }
def State.setQsu (s : State) (q : Qsu) : State := { s with qsu := q }
def State.setLpu (s : State) (l : Lpu) : State := { s with lpu := l }
def State.setHou (s : State) (h : Hou) : State := { s with hou := h }
def State.setPtu (s : State) (p : Ptu) : State := { s with ptu := p }
def State.setAlu (s : State) (a : Alu) : State := { s with alu := a }
def State.setXu (s : State) (x : Xu) : State := { s with xu := x }
def State.setWires (s : State) (w : Wires) : State := { s with wires := w }
def State.setReadData (s : State) (w : Word) : State := { s with readData := w }

/-- The port entry at `p` replaced by its image. -/
def State.updPort (s : State) (p : Port) (f : PortEntry → PortEntry) : State :=
  s.setPtu { s.ptu with ports := updAt s.ptu.ports p f }

/-- The measurement record of AUX channel `a` replaced. -/
def State.setMeas (s : State) (a : AuxId) (m : Option DelayMeas) : State :=
  s.setPtu { s.ptu with meas := s.ptu.meas.set a m }

/-- The divider `d` replaced by its image. -/
def State.updDiv (s : State) (d : DividerId) (f : Divider → Divider) : State :=
  s.setCap { s.cap with div := updAt s.cap.div d f }

/-- The PPS channel `c` replaced by its image. -/
def State.updPps (s : State) (c : PpsChannelId) (f : PpsChannel → PpsChannel) : State :=
  s.setCap { s.cap with pps := updAt s.cap.pps c f }

/-- The packet reference `k` replaced by its image. -/
def State.updPacket (s : State) (k : PacketId) (f : PacketRef → PacketRef) : State :=
  s.setPku { s.pku with refs := updAt s.pku.refs k f }

/-- The reference entry `r` replaced by its image. -/
def State.updRef (s : State) (r : Ref) (f : RefEntry → RefEntry) : State :=
  s.setQsu { s.qsu with refs := updAt s.qsu.refs r f }

/-! ### Indices -/

/-- Reference index of a PPS channel. -/
def ppsRef (c : PpsChannelId) : Ref := ⟨c.val, by omega⟩

/-- Reference index of a divider. -/
def divRef (d : DividerId) : Ref := ⟨d.val + 2, by omega⟩

/-- Reference index of a packet reference. -/
def pktRef (k : PacketId) : Ref := ⟨k.val + 6, by omega⟩

/-- The divider of a LINE input (R33). -/
def lineDiv (l : LineId) : DividerId := ⟨l.val + 2, by omega⟩

/-- The LINE input of a divider, if it has one. -/
def divLine (d : DividerId) : Option LineId :=
  if h : 2 ≤ d.val then some ⟨d.val - 2, by omega⟩ else none

/-! ### Readings of the timescale (R3, R21) -/

/-- A reading: an instant, and whether it was taken during the hold of a negative step (R21). -/
structure Reading where
  at_ : Instant
  held : Bool
  deriving DecidableEq, Repr

/-- A reading of the present instant; (N, 0) and marked held during a hold (R3, R21). -/
def tsuReading (t : Tsu) : Reading :=
  ⟨⟨t.label, if t.hold.isSome then 0 else t.frac⟩, t.hold.isSome⟩

/-- The reading as a block takes it that has the boundaries `waiting` still to take: the block takes
its event before the first of them, so the reading lies in the second that boundary ended, at its
last instant (R21, log entry 5). -/
def readingFor (t : Tsu) (waiting : List Boundary) : Reading :=
  match waiting with
  | [] => tsuReading t
  | b :: _ => ⟨⟨b.endedLabel, psPerSecond - 1⟩, false⟩

/-- A channel's or divider's stamp: the reading rounded down to the grid (R3, R21). -/
def stampFor (t : Tsu) (waiting : List Boundary) : Reading :=
  let r := readingFor t waiting
  { r with at_ := { r.at_ with ps := onGrid r.at_.ps } }

/-- Has the timescale reached the instant `ps` of the second with this ordinal? During a hold the
instants of the new second are still to come (R128). -/
def reached (t : Tsu) (second ps : Nat) : Bool :=
  second < t.second || (second == t.second && t.hold.isNone && ps ≤ t.frac)

/-- The label an instant of the second with this ordinal carries, for the current second and the one
before it (log entry 28). -/
def labelOf (t : Tsu) (second : Nat) : Label :=
  if second = t.second then t.label else t.prevLabel

/-! ### Words (R181) -/

/-- A label as three words, low word first. -/
def labelWords (l : Label) : List Word :=
  [l.extractLsb' 0 16, l.extractLsb' 16 16, l.extractLsb' 32 16]

/-- A 32-bit value as two words, low word first. -/
def words2 (v : BitVec 32) : List Word := [v.extractLsb' 0 16, v.extractLsb' 16 16]

/-- A 48-bit value as three words, low word first. -/
def words3 (v : BitVec 48) : List Word :=
  [v.extractLsb' 0 16, v.extractLsb' 16 16, v.extractLsb' 32 16]

/-- A signed ppt figure in two words, saturated (R181). -/
def encPpt (x : Int) : List Word :=
  words2 (BitVec.ofInt 32 (max (-2147483648) (min 2147483647 x)))

/-- A signed time in ps in two words; a figure that does not fit is a free value (log entry 15). -/
def encPs2 (x : Int) : List Word :=
  words2 (if -2147483648 ≤ x ∧ x ≤ 2147483647 then BitVec.ofInt 32 x else unencodable32 x)

/-- A signed time in ps in three words; a figure that does not fit is a free value (log entry 15). -/
def encPs3 (x : Int) : List Word :=
  words3 (if -140737488355328 ≤ x ∧ x ≤ 140737488355327 then BitVec.ofInt 48 x
    else unencodable48 x)

/-- An unsigned quantity in one, two or three words. -/
def encNat1 (x : Nat) : List Word := [BitVec.ofNat 16 x]
def encNat2 (x : Nat) : List Word := words2 (BitVec.ofNat 32 x)
def encNat3 (x : Nat) : List Word := words3 (BitVec.ofNat 48 x)

/-- An instant in six words (R181). -/
def encInstant (i : Instant) : List Word := labelWords i.label ++ encNat3 i.ps

end Sys2Proof.Machine
end

