-- ==== Sys2Proof/Machine/Flags.lean ====
section
/-! DEFINITION. Flags that other state settles: the attention classes with the interrupt lines they
drive, the alarm pins, the conditions handed to the alarm unit, and the completion of requests. -/

namespace Sys2Proof.Machine

open Config

/-! ### Attention classes (10, section 10.4) -/

abbrev clsDone : AttnClass := 0
abbrev clsAlarm : AttnClass := 1
abbrev clsEpoch : AttnClass := 2
abbrev clsBoard : AttnClass := 3
abbrev clsSelect : AttnClass := 4
abbrev clsPort : AttnClass := 5

/-- Is at least one attention class routed to this line pending (R174)? -/
def lineWanted (attn : Vector Attention 6) (r : Route) : Bool :=
  (List.finRange 6).any fun c => attn[c].pending && attn[c].route == r

/-- Both interrupt lines settled (R174). -/
def settleLines (x : Xu) : Xu :=
  { x with inta := lineWanted x.attn .inta, intb := lineWanted x.attn .intb }

/-- A bump: the count up by 1, wrapping, pending set, the lines settled (R172). -/
def bumpXu (c : AttnClass) (x : Xu) : Xu :=
  settleLines
    { x with attn := updAt x.attn c fun a => { a with pending := true, count := a.count + 1 } }

def bump (c : AttnClass) (s : State) : State := s.setXu (bumpXu c s.xu)

/-- An acknowledgement: the ack word stored; pending cleared when it equals the count (R173). -/
def ackXu (c : AttnClass) (v : Word) (x : Xu) : Xu :=
  settleLines
    { x with attn := updAt x.attn c fun a =>
        { a with ack := v, pending := if v = a.count then false else a.pending } }

/-- The route a route word names (R174). -/
def routeOf (v : Word) : Option Route :=
  if v = 0 then some .none_ else if v = 1 then some .inta else if v = 2 then some .intb else none

/-- A route word written: a value the rule takes changes the route at once, any other is discarded
(R174). -/
def routeXu (c : AttnClass) (v : Word) (x : Xu) : Xu :=
  match routeOf v with
  | some r => settleLines { x with attn := updAt x.attn c fun a => { a with route := r } }
  | none => x

/-! ### Completions (R171) -/

/-- Code of a completion (R182). -/
def Completion.code : Completion → Word
  | .ok => 1
  | .adjusted => 2
  | .superseded => 3
  | .busy => 4
  | .invalid => 5
  | .notPermitted => 6
  | .noReturn => 7
  | .unstable => 8
  | .interrupted => 9
  | .missed => 10

/-- The result written over the parameter area from its first word; the words beyond it stay. -/
def overwrite (params : Vector Word 24) (result : List Word) : Vector Word 24 :=
  Vector.ofFn fun i : Fin 24 => (result[i.val]?).getD params[i]

/-- A completion reported for slot `n`: written, the slot DONE and DONE bumped, when the slot is
TAKEN; discarded otherwise (R171). -/
def complete (n : Slot) (c : Completion) (label : Label) (result : List Word) (s : State) : State :=
  if s.xu.slots[n].state = .taken then
    bump clsDone (s.setXu { s.xu with slots := updAt s.xu.slots n fun q =>
      { q with params := overwrite q.params result, code := c.code, label := label,
               state := .done } })
  else s

/-- A completion without result, with the label current now (R171 step 3). -/
def completeNow (n : Slot) (c : Completion) (s : State) : State := complete n c s.tsu.label [] s

/-! ### Conditions (R149, R150) -/

abbrev codeRefFault (r : Ref) : AlarmCode := ⟨r.val, by omega⟩
abbrev codeNoReference : AlarmCode := 8
abbrev codeBudget : AlarmCode := 9
abbrev codeFreeRunning : AlarmCode := 10
abbrev codeFreqLimit : AlarmCode := 11
abbrev codeWarmUp : AlarmCode := 12
abbrev codeTimeNotSet : AlarmCode := 13
abbrev codeSquelched : AlarmCode := 14
abbrev codeForce : AlarmCode := 15
abbrev codeLeap : AlarmCode := 16
abbrev codeDelayFailed : AlarmCode := 17
abbrev codeNotReady : AlarmCode := 18

/-- A condition change handed to the alarm unit (R150). -/
def handCond (code : AlarmCode) (present : Bool) (s : State) : State :=
  s.setWires { s.wires with conds := s.wires.conds ++ [⟨code, present⟩] }

/-- A change of presence handed only when it is one. -/
def handIfChanged (code : AlarmCode) (before after : Bool) (s : State) : State :=
  if before = after then s else handCond code after s

/-- FREQUENCY-LIMIT settled (R91): one presence, held in the loop's state. -/
def settleFreqLimit (present : Bool) (s : State) : State :=
  handIfChanged codeFreqLimit s.lpu.freqLimit present
    (s.setLpu { s.lpu with freqLimit := present })

/-! ### Alarm pins (R155) -/

/-- Does this entry assert the pin of its severity (R155, R156)? -/
def drivesPin (e : AlarmEntry) : Bool :=
  !e.mask && (e.state == .raised || e.state == .clearing)

/-- Is at least one unmasked entry of this severity RAISED or CLEARING (R155)? -/
def pinWanted (entries : Vector AlarmEntry 19) (v : Severity) : Bool :=
  (List.finRange 19).any fun c => drivesPin entries[c] && entries[c].severity == v

/-- The three alarm pins settled (R155). -/
def settlePins (a : Alu) : Alu :=
  { a with
    critPin := pinWanted a.entries .critical
    majPin := pinWanted a.entries .major
    minPin := pinWanted a.entries .minor }

end Sys2Proof.Machine
end

