-- ==== Sys2Proof/Machine/Operands.lean ====
section
/-! DEFINITION. The parameter words of requests (R181, R183, R185): how each is read, and which
values are in range. A reader answers `none` where the owner's checks complete the request INVALID. -/

namespace Sys2Proof.Machine

open Config

abbrev Params := Vector Word 24

/-- Parameter word `i` of the area (R185); 0 beyond it. -/
def Params.w (p : Params) (i : Nat) : Word := p.toList.getD i 0

/-- One word, unsigned. -/
def Params.n1 (p : Params) (i : Nat) : Nat := (Params.w p i).toNat

/-- Two words, low word first, as 32 bits. -/
def Params.b2 (p : Params) (i : Nat) : BitVec 32 := Params.w p (i + 1) ++ Params.w p i

/-- Three words, low word first, as 48 bits. -/
def Params.b3 (p : Params) (i : Nat) : BitVec 48 :=
  ((Params.w p (i + 2) ++ Params.w p (i + 1)) ++ Params.w p i : BitVec (16 + 16 + 16))

def Params.n2 (p : Params) (i : Nat) : Nat := (Params.b2 p i).toNat
def Params.n3 (p : Params) (i : Nat) : Nat := (Params.b3 p i).toNat
def Params.i2 (p : Params) (i : Nat) : Int := (Params.b2 p i).toInt
def Params.i3 (p : Params) (i : Nat) : Int := (Params.b3 p i).toInt

/-- A flag word: 0 or 1, any other value is out of range (R181, R183). -/
def Params.flag (p : Params) (i : Nat) : Option Bool :=
  if Params.w p i = 0 then some false else if Params.w p i = 1 then some true else none

/-- A value within a range, or out of range. -/
def inRange (lo hi x : Nat) : Option Nat := if lo ≤ x ∧ x ≤ hi then some x else none

/-- An index below `n`, or out of range. -/
def asIndex (n : Nat) (w : Word) : Option (Fin n) :=
  if h : w.toNat < n then some ⟨w.toNat, h⟩ else none

/-- A label in four words: a nonzero fourth word is a label above 2⁴⁸ − 1 (R183). -/
def Params.label4 (p : Params) (i : Nat) : Option Label :=
  if Params.w p (i + 3) = 0 then some (Params.b3 p i) else none

/-! ### CONFIGURE-REFERENCE (R55, R57) -/

/-- The configuration a CONFIGURE-REFERENCE gives reference `r`, its compensation clamped, with the
mark whether it was; `none` when a field is out of range (R57). Fields of another kind are stored as
their defaults. -/
def refConfigOf (p : Params) (r : Ref) : Option (RefConfig × Bool) := do
  let dflt := defaultRefConfig r
  let enabled ← p.flag 1
  let priority ← inRange 0 15 (p.n1 2)
  let hasPhase := refKind r == .pps || refKind r == .pkt
  let comp := if hasPhase then p.i2 3 else 0
  let accuracy ← if hasPhase then inRange 0 100000000 (p.n2 5) else some dflt.accuracy
  let wMin ← if refKind r == .pps then inRange 125 999999999875 (p.n3 15) else some dflt.wMin
  let wMax ← if refKind r == .pps then inRange wMin 999999999875 (p.n3 18) else some dflt.wMax
  let nominal ← match refKind r with
    | .frq => inRange 1 25000000 (p.n2 15)
    | .line => inRange 8000 156250000 (p.n2 15)
    | _ => some dflt.nominal
  let gross ← match refKind r with
    | .frq | .line => inRange 1000 100000000 (p.n2 17)
    | _ => some dflt.gross
  let span ← if refKind r == .pkt then inRange 1 16 (p.n1 15) else some dflt.span
  let delayLimit ← if refKind r == .pkt then inRange 1000000 2000000000000 (p.n3 16)
    else some dflt.delayLimit
  let phaseTol ← if hasPhase then inRange 1000 100000000000 (p.n3 7) else some dflt.phaseTol
  let freqTol ← inRange 1 100000000 (p.n2 10)
  let qualifyTime ← inRange 1 3600 (p.n1 12)
  let dwell ← inRange 0 3600 (p.n1 13)
  let badLimit ← inRange 0 15 (p.n1 14)
  let clamped := clampAbs comp compensationBound
  some (⟨enabled, priority, clamped, accuracy, wMin, wMax, nominal, gross, span, delayLimit,
    phaseTol, freqTol, qualifyTime, dwell, badLimit⟩, clamped != comp)

/-! ### CONFIGURE-LOOP (R98) -/

def policyOf (w : Word) : Option StepPolicy :=
  if w = 0 then some .never else if w = 1 then some .firstLock
  else if w = 2 then some .always else none

/-- The loop configuration a CONFIGURE-LOOP gives, or `none` where a check of R98 fails. -/
def loopConfigOf (p : Params) : Option LoopConfig := do
  let acqP ← inRange 0 15 (p.n1 0)
  let acqI ← inRange acqP 24 (p.n1 1)
  let trackP ← inRange 0 15 (p.n1 2)
  let trackI ← inRange trackP 24 (p.n1 3)
  let ts ← inRange 100000 500000000000 (p.n3 4)
  let tu ← inRange 1000 500000000000 (p.n3 7)
  let tl ← inRange 1000 500000000000 (p.n3 10)
  let lockLimit ← inRange 1 255 (p.n1 13)
  let unlockLimit ← inRange 1 255 (p.n1 14)
  let fLimit ← inRange 1000 50000000 (p.n2 15)
  let policy ← policyOf (p.w 17)
  if tl ≤ tu ∧ tu ≤ ts then
    some ⟨acqP, acqI, trackP, trackI, ts, tu, tl, lockLimit, unlockLimit, fLimit, policy⟩
  else none

/-! ### CONFIGURE-HOLDOVER (R116) -/

def agingModeOf (w : Word) : Option Bool :=
  if w = 0 then some false else if w = 1 then some true else none

/-- The holdover configuration a CONFIGURE-HOLDOVER gives, its interval clamped, with the mark
whether it was; `none` where a parameter is INVALID (R116). -/
def holdConfigOf (p : Params) : Option (HoldConfig × Bool) := do
  let interval := max 16 (min 3600 (p.n1 0))
  let guards ← inRange 0 3 (p.n1 1)
  let fixed ← agingModeOf (p.w 2)
  let dCfg ← if -1000000 ≤ p.i2 3 ∧ p.i2 3 ≤ 1000000 then some (p.i2 3) else none
  let dMax ← inRange 0 1000000 (p.n2 5)
  let yHold ← inRange 0 100000000 (p.n2 7)
  let aging ← inRange 0 1000000 (p.n2 9)
  let yAssist ← inRange 0 1000000 (p.n2 11)
  let uAlarm ← inRange 1000 999999999999 (p.n3 13)
  let ready ← inRange 1 8 (p.n1 16)
  some (⟨interval, guards, fixed, dCfg, dMax, yHold, aging, yAssist, uAlarm, ready⟩,
    interval != p.n1 0)

/-! ### CONFIGURE-PORT (R120, R132) -/

def portModeOf (w : Word) : Option PortMode :=
  if w = 0 then some .off else if w = 1 then some .pulse
  else if w = 2 then some .frequency else if w = 3 then some .timecode else none

def polarityOf (w : Word) : Option Polarity :=
  if w = 0 then some .normal else if w = 1 then some .inverted else none

def squelchPolicyOf (w : Word) : Option SquelchPolicy :=
  if w = 0 then some .runAlways else if w = 1 then some .onBudget
  else if w = 2 then some .unlocked else none

def pinLevelOf (w : Word) : Option PinLevel :=
  if w = 0 then some .low else if w = 1 then some .high
  else if w = 2 then some .highZ else none

/-- A baud rate the part supports (R120); the parameter is the rate itself (log entry 21). -/
def baudOf (n : Nat) : Option Nat :=
  if n = 9600 ∨ n = 19200 ∨ n = 38400 ∨ n = 115200 then some n else none

/-- A pulse width: 0 is out of range, a width above the bound is clamped (R120). -/
def widthOf (hi n : Nat) : Option (Nat × Bool) :=
  if n = 0 then none else some (min n hi, hi < n)

/-- The settings record a CONFIGURE-PORT gives, clamped where R120 says so, with the mark whether a
clamp was made; `none` where a field is INVALID. Fields that do not apply to the mode are stored as
their defaults (R132). -/
def portSettingsOf (p : Params) : Option (PortSettings × Bool) := do
  let mode ← portModeOf (p.w 1)
  if mode = .off then
    some (defaultSettings, false)
  else
    let polarity ← polarityOf (p.w 2)
    let comp := clampAbs (p.i2 3) compensationBound
    let width ← match mode with
      | .pulse => widthOf 500000000 (p.n2 5)
      | .timecode => widthOf 10000000 (p.n2 5)
      | _ => some (defaultSettings.width, false)
    let freq ← if mode = .frequency then inRange 1 25000000 (p.n2 7) else some defaultSettings.freq
    let baud ← if mode = .timecode then baudOf (p.n2 9) else some defaultSettings.baud
    let policy ← squelchPolicyOf (p.w 11)
    let limit ← inRange 1000 999999999999 (p.n3 12)
    let level ← pinLevelOf (p.w 15)
    some (⟨mode, polarity, comp, width.1, freq, baud, policy, limit, level⟩,
      comp != p.i2 3 || width.2)

/-! ### MEASURE-PORT-DELAY (R140) -/

/-- An AUX choice: one channel, or ANY (R140, R182). -/
inductive AuxChoice where
  | one (a : AuxId)
  | any
  deriving DecidableEq, Repr

def auxChoiceOf (w : Word) : Option AuxChoice :=
  if w = 1 then some (.one 0) else if w = 2 then some (.one 1)
  else if w = 3 then some .any else none

structure MeasureParams where
  port : Port
  choice : AuxChoice
  farEnd : Int
  apply : Bool
  deriving DecidableEq, Repr

/-- The parameters of a MEASURE-PORT-DELAY, or `none` where order 1 of R140 fails. -/
def measureParamsOf (p : Params) : Option MeasureParams := do
  let port ← asIndex 12 (p.w 0)
  let choice ← auxChoiceOf (p.w 1)
  let farEnd ← if -(compensationBound : Int) ≤ p.i2 2 ∧ p.i2 2 ≤ (compensationBound : Int)
    then some (p.i2 2) else none
  let apply ← p.flag 4
  some ⟨port, choice, farEnd, apply⟩

/-! ### CONFIGURE-ALARM (R159) -/

def severityOf (w : Word) : Option Severity :=
  if w = 0 then some .critical else if w = 1 then some .major
  else if w = 2 then some .minor else if w = 3 then some .warning else none

structure AlarmParams where
  code : AlarmCode
  severity : Severity
  mask : Bool
  raiseDelay : Nat
  clearDelay : Nat
  deriving DecidableEq, Repr

/-- The parameters of a CONFIGURE-ALARM, or `none` where a check of R159 fails. -/
def alarmParamsOf (p : Params) : Option AlarmParams := do
  let code ← asIndex 19 (p.w 0)
  let severity ← severityOf (p.w 1)
  let mask ← p.flag 2
  let raiseDelay ← inRange 0 255 (p.n1 3)
  let clearDelay ← inRange 0 255 (p.n1 4)
  some ⟨code, severity, mask, raiseDelay, clearDelay⟩

/-! ### The request unit's hand (R170) -/

/-- The slot whose request the request unit holds, when its kind is `kind`. -/
def heldSlot (kind : Nat) (s : State) : Option Slot :=
  match s.xu.unit with
  | some n => if s.xu.slots[n].kind.toNat = kind ∧ s.xu.slots[n].state = .taken then some n else none
  | none => none

/-- The owner of a kind takes the request the unit holds; the unit then holds none (R170). With no
request of the kind held there is nothing to take (log entry 2). -/
def takeRequest (kind : Nat) (f : Slot → Params → State → State) (s : State) : State :=
  match heldSlot kind s with
  | some n => f n s.xu.slots[n].params (s.setXu { s.xu with unit := none })
  | none => s

end Sys2Proof.Machine
end

