-- ==== Sys2Proof/Machine/PortSignal.lean ====
section
/-! DEFINITION. The signal of a running port (07_output_ports.md, sections 7.2, 7.3 and 7.6): levels,
period plans, edges, the site time message and what a positive phase step does to them. -/

namespace Sys2Proof.Machine

open Config

/-! ### Levels (R121, R122) -/

def idleLevel : Polarity → PinLevel
  | .normal => .low
  | .inverted => .high

def activeLevel : Polarity → PinLevel
  | .normal => .high
  | .inverted => .low

/-! ### Edges of a period (R124 to R126) -/

/-- How many edges a period has: 2 in PULSE and TIMECODE (R125), 2f in FREQUENCY (R126). -/
def edgeCount (p : PortSettings) : Nat :=
  match p.mode with
  | .off => 0
  | .frequency => 2 * p.freq
  | _ => 2

/-- Offset x of edge k from the compensated boundary, in ps (R125, R126). -/
def edgeOffset (p : PortSettings) (k : Nat) : Nat :=
  match p.mode with
  | .frequency => k * psPerSecond / (2 * p.freq * grid) * grid
  | _ => if k = 0 then 0 else p.width * 1000

/-- Level edge k leaves: even edges lead, odd edges trail (R125, R126). -/
def edgeLevel (p : PortSettings) (k : Nat) : PinLevel :=
  if k % 2 = 0 then activeLevel p.polarity else idleLevel p.polarity

/-- The instant of the point `x` ps after a plan's compensated boundary: ordinal of its second, and
its fraction rounded down to the grid (R124). -/
def placed (p : Plan) (x : Nat) : Nat × Nat :=
  let r := floorGrid ((x : Int) - p.settings.compensation)
  if r < 0 then (p.second - 1, ((psPerSecond : Int) + r).toNat)
  else if r < (psPerSecond : Int) then (p.second, r.toNat)
  else (p.second + 1, (r - (psPerSecond : Int)).toNat)

/-- Did the positive step that began the current second skip this instant (R128)? -/
def skipped (t : Tsu) (at_ : Nat × Nat) : Bool := at_.1 == t.second && at_.2 < t.skipTo

/-- How many edges of a plan lie before the point the current second was resumed at: those whose
instant is earlier than fraction `skipTo` of the current second (R128). For FREQUENCY this is the
count of k with x_k below the bound, in closed form. -/
def edgesBeforeResume (t : Tsu) (p : Plan) : Nat :=
  let limit : Int := (t.skipTo : Int) + ((t.second : Int) - (p.second : Int)) * (psPerSecond : Int)
  let bound : Int := ceilGrid limit + p.settings.compensation
  match p.settings.mode with
  | .off => 0
  | .frequency =>
    let m := (bound.toNat + (grid - 1)) / grid
    min (2 * p.settings.freq) ((m * (2 * p.settings.freq * grid) + (psPerSecond - 1)) / psPerSecond)
  | _ => ((List.range 2).filter fun k => (edgeOffset p.settings k : Int) < bound).length

/-! ### The site time message (R127, R135 to R137, R191) -/

/-- CRC-16 over bytes, each most significant bit first, register starting at 0xFFFF, polynomial
0x1021, no final inversion (R137). -/
def crcBit (reg : BitVec 16) (b : Bool) : BitVec 16 :=
  let shifted := reg <<< 1
  if reg.msb != b then shifted ^^^ 0x1021#16 else shifted

def crcByte (reg : BitVec 16) (b : Byte) : BitVec 16 :=
  (List.range 8).foldl (fun r i => crcBit r (b.getLsbD (7 - i))) reg

def crc16 (bytes : List Byte) : BitVec 16 := bytes.foldl crcByte 0xFFFF#16

/-- The uncertainty code: the smallest n from 0 to 31 with U at most 2ⁿ × 1,000 ps, else 31 (R136). -/
def uncertaintyCode (u : Nat) : Nat :=
  ((List.range 31).find? fun n => u ≤ 2 ^ n * 1000).getD 31

/-- Code of a selected reference's kind in the message (R135). -/
def kindCode : Option Ref → Byte
  | none => 0
  | some r => match refKind r with
    | .pps => 1
    | .frq => 2
    | .line => 3
    | .pkt => 4

def bitOf (b : Bool) : Nat := if b then 1 else 0

/-- Flags byte of the message (R191). -/
def messageFlags (b : Boundary) : Byte :=
  BitVec.ofNat 8 (bitOf b.timeSet + 2 * bitOf b.leap.isSome
    + 4 * bitOf (b.leap == some .delete) + 8 * bitOf b.repeated)

/-- The 14 bytes of the message of the second that boundary `b` begins (R135, R191). -/
def siteMessage (b : Boundary) (v : HouValues) (selected : Option Ref) : SiteMessage :=
  let head : List Byte :=
    [0xB6, 0x01]
    ++ (List.range 6).map (fun i => b.label.extractLsb' (8 * i) 8)
    ++ [messageFlags b, BitVec.ofNat 8 v.quality, BitVec.ofNat 8 (uncertaintyCode v.u),
        kindCode selected]
  let crc := crc16 head
  ⟨b.label, head ++ [crc.extractLsb' 8 8, crc.extractLsb' 0 8]⟩

/-- Number of bits of a message: 14 bytes of 10 bits (R127). -/
abbrev messageBits : Nat := 140

/-- Offset of bit j of the message; j = 140 is its end (R127). -/
def bitOffset (baud j : Nat) : Nat := messageOffset + j * psPerSecond / (baud * grid) * grid

/-- Value of bit j: a start bit 0, the data bits least significant first, a stop bit 1 (R127). -/
def messageBit (bytes : List Byte) (j : Nat) : Bool :=
  if j % 10 = 0 then false
  else if j % 10 = 9 then true
  else (bytes.getD (j / 10) 0).getLsbD (j % 10 - 1)

/-- A bit of value 0 is sent at the active level (R127). -/
def bitLevel (p : Polarity) (b : Bool) : PinLevel := if b then idleLevel p else activeLevel p

/-! ### The period in progress -/

/-- The bit position that says no bit of the message is left to send. -/
abbrev messageDone : Nat := messageBits + 1

/-- Is nothing of the period left to emit (R124)? -/
def progressDone (pr : Progress) : Bool :=
  edgeCount pr.plan.settings ≤ pr.edge
  && (pr.plan.settings.mode != .timecode || messageDone ≤ pr.bit)

/-- The period in progress returns to none when its last edge and its message have been emitted
(R124). -/
def keepProgress (pr : Progress) : Option Progress := if progressDone pr then none else some pr

/-- The message is not sent when its start instant was skipped (R128). -/
def dropSkippedMessage (t : Tsu) (pr : Progress) : Progress :=
  if pr.bit = 0 && skipped t (placed pr.plan (bitOffset pr.plan.settings.baud 0)) then
    { pr with bit := messageDone }
  else pr

/-- The resumption instant after a positive step, on the grid (R128). -/
def resumption (t : Tsu) : Instant := ⟨t.label, onGrid t.skipTo⟩

/-- After a positive step the pin takes the level the last skipped edge would have left; the change,
if any, is an edge at the resumption instant. For a PULSE or TIMECODE period whose leading edge alone
was skipped the change is its leading edge (R128); without a change of level, and for FREQUENCY, none
is recorded (log entry 27). -/
def resumePeriod (t : Tsu) (pr : Progress) (e : PortEntry) : PortEntry :=
  let k := max pr.edge (edgesBeforeResume t pr.plan)
  let pr' := dropSkippedMessage t { pr with edge := k }
  if pr.edge < k then
    let level := edgeLevel pr.plan.settings (k - 1)
    let leads := pr.edge == 0 && k == 1 && pr.plan.settings.mode != .frequency && level != e.pin
    { e with
      pin := level
      lastEdge := if leads then some (resumption t) else e.lastEdge
      progress := keepProgress pr' }
  else { e with progress := keepProgress pr' }

/-- The next edge of the period is emitted at its instant: the pin takes its level. Edge 0 is recorded
as the last leading edge: in FREQUENCY always, in PULSE and TIMECODE where it takes the pin to another
level (R121, R124, R138, log entry 27). -/
def emitEdge (t : Tsu) (pr : Progress) (e : PortEntry) : PortEntry :=
  let level := edgeLevel pr.plan.settings pr.edge
  let at_ := placed pr.plan (edgeOffset pr.plan.settings pr.edge)
  { e with
    pin := level
    lastEdge :=
      if pr.edge == 0 && (pr.plan.settings.mode == .frequency || level != e.pin) then
        some ⟨labelOf t at_.1, at_.2⟩
      else e.lastEdge
    progress := keepProgress { pr with edge := pr.edge + 1 } }

/-- What the delay measurement is told at the start of a period (R138): the instant of its leading
edge; the resumption instant where only the leading edge was skipped, also where the resumption makes
no change of level (log entry 49); none where both were. -/
def leadOf (t : Tsu) (p : Plan) : Option (Instant × Nat) :=
  let at_ := placed p 0
  if skipped t at_ then
    if edgesBeforeResume t p = 1 then some (resumption t, t.second) else none
  else some (⟨labelOf t at_.1, at_.2⟩, at_.1)

/-- A notice handed to the measurement in flight on a port, if there is one (R123, R138). -/
def notifyMeas (p : Port) (n : MeasNotice) (s : State) : State :=
  match s.ptu.ports[p].measuring with
  | none => s
  | some a =>
    match s.ptu.meas[a] with
    | none => s
    | some m => s.setMeas a (some { m with notices := m.notices ++ [n] })

/-- The period of the first armed plan begins: the plan becomes the period in progress in place of
the one before it (R124). Where a positive step skipped its beginning, the pin is resumed (R128). -/
def beginPeriod (p : Port) (s : State) : State :=
  match s.ptu.ports[p].armed with
  | [] => s
  | plan :: rest =>
    let t := s.tsu
    let pr : Progress := ⟨plan, 0, 0⟩
    let started := s.updPort p fun e =>
      let e := { e with armed := rest, progress := some pr }
      if skipped t (placed plan 0) then resumePeriod t pr e else e
    notifyMeas p (.period (leadOf t plan)) started

/-- What a positive step does to a port as the new second's fraction resumes (R128): a period whose
beginning was skipped begins; otherwise the skipped edges of the period in progress are passed, unless
an earlier edge of it is still to be emitted. -/
def resumePort (p : Port) (s : State) : State :=
  let e := s.ptu.ports[p]
  let t := s.tsu
  let beginsSkipped := match e.armed with
    | [] => false
    | plan :: _ => skipped t (placed plan 0)
  if beginsSkipped then beginPeriod p s
  else match e.progress with
    | none => s
    | some pr =>
      let waits := pr.edge < edgeCount pr.plan.settings
        && (placed pr.plan (edgeOffset pr.plan.settings pr.edge)).1 < t.second
      if waits then s else s.updPort p (resumePeriod t pr)

/-- STEP_RESUMPTION over all ports (R128). -/
def resumePorts (s : State) : State :=
  (List.finRange 12).foldl (fun s p => resumePort p s) s

/-! ### PERIOD_BEGIN, PORT_EDGE, SITE_TIME_MESSAGE -/

/-- Has the timescale reached the compensated boundary of the port's first armed plan (R124, log
entry 24)? -/
def periodBeginDue (p : Port) (s : State) : Bool :=
  match s.ptu.ports[p].armed with
  | [] => false
  | plan :: _ => let a := placed plan 0; reached s.tsu a.1 a.2

def takePeriodBegin (p : Port) (s : State) : State :=
  if periodBeginDue p s then beginPeriod p s else s

/-- PORT_EDGE: the next edge of the period in progress, once the timescale has reached its instant; a
skipped instant is passed by resumption (R124, R128). -/
def takePortEdge (p : Port) (s : State) : State :=
  match s.ptu.ports[p].progress with
  | none => s
  | some pr =>
    if pr.edge < edgeCount pr.plan.settings then
      let a := placed pr.plan (edgeOffset pr.plan.settings pr.edge)
      if skipped s.tsu a then s.updPort p (resumePeriod s.tsu pr)
      else if reached s.tsu a.1 a.2 then s.updPort p (emitEdge s.tsu pr)
      else s
    else s

/-- One bit of the message sent, or its end: at the end the label is recorded as the port's last
message label (R127, R138). A bit that takes the pin to the active level is not recorded as the last
leading edge: that is the period's alone (DESIGN CHOICE, log entry 57). -/
def sendBit (pr : Progress) (m : SiteMessage) (e : PortEntry) : PortEntry :=
  let pr' := { pr with bit := pr.bit + 1 }
  if pr.bit < messageBits then
    { e with
      pin := bitLevel pr.plan.settings.polarity (messageBit m.bytes pr.bit)
      progress := keepProgress pr' }
  else { e with lastMessage := some m.label, progress := keepProgress pr' }

/-- Is the next bit of the period's message, or its end, to be sent now? Its contents are fixed and
the timescale has reached its instant (R127, R135). -/
def bitDue (t : Tsu) (pr : Progress) : Bool :=
  let a := placed pr.plan (bitOffset pr.plan.settings.baud pr.bit)
  pr.plan.settings.mode == .timecode && decide (pr.bit ≤ messageBits) && reached t a.1 a.2

/-- Every bit whose instant the timescale has reached sent in order, at most `n` of them. -/
def sendReached (t : Tsu) : Nat → PortEntry → PortEntry
  | 0, e => e
  | n + 1, e =>
    match e.progress with
    | none => e
    | some pr =>
      match pr.plan.message with
      | none => e
      | some m => if bitDue t pr then sendReached t n (sendBit pr m e) else e

/-- SITE_TIME_MESSAGE: the message of the period in progress is sent as far as the timescale has
reached (R127, log entry 23); a message whose start was skipped is not sent (R128). -/
def takeMessage (p : Port) (s : State) : State :=
  match s.ptu.ports[p].progress with
  | none => s
  | some pr =>
    let a := placed pr.plan (bitOffset pr.plan.settings.baud 0)
    if pr.plan.settings.mode = .timecode ∧ pr.bit = 0 ∧ skipped s.tsu a then
      s.updPort p fun e => { e with progress := keepProgress { pr with bit := messageDone } }
    else s.updPort p (sendReached s.tsu messageDone)

def execPeriodBegin (p : Port) (s : State) : Host.Outcome State Fault Refusal :=
  .next (takePeriodBegin p s)

def execPortEdge (p : Port) (s : State) : Host.Outcome State Fault Refusal :=
  .next (takePortEdge p s)

def execSiteTimeMessage (p : Port) (s : State) : Host.Outcome State Fault Refusal :=
  .next (takeMessage p s)

end Sys2Proof.Machine
end

