-- ==== Sys2Proof/Machine/Timescale.lean ====
section
/-! DEFINITION. The timescale unit (01_the_timescale.md): OSC-IN cycles, the second boundary, phase
steps and the step log, and the TSU's three requests. -/

namespace Sys2Proof.Machine

open Config

/-! ### The fraction (R3, R4) -/

/-- What one OSC-IN cycle adds, in residue units, the residue included (R4). -/
def cycleTotal (t : Tsu) : Nat := ((cycleUnits : Int) + t.freq + (t.residue : Int)).toNat

/-- Whole picoseconds of timescale running in this cycle (R4). -/
def cycleAdvance (t : Tsu) : Nat := cycleTotal t / residueUnit

/-- The fraction set to a count of ps; a count of 10¹² or more completes the second, and the part
beyond is the overshoot (R3, R5). -/
def setFraction (raw : Nat) (t : Tsu) : Tsu :=
  if raw < psPerSecond then { t with frac := raw }
  else { t with frac := psPerSecond - 1, due := some (raw - psPerSecond) }

/-- Is the hold of a negative step complete (R10)? -/
def holdEndDue (t : Tsu) : Bool :=
  match t.hold with
  | some h => h.length ≤ h.run
  | none => false

/-- The timescale advanced by one cycle: the fraction counts, or during a hold the hold does (R4,
R10). -/
def advanceTsu (t : Tsu) : Tsu :=
  let a := cycleAdvance t
  let t' := { t with residue := cycleTotal t % residueUnit }
  match t.hold with
  | some h => { t' with hold := some { h with run := h.run + a } }
  | none => setFraction (t.frac + a) t'

/-- Timers of the dividers count timescale running (R31). -/
def runDividerTimer (a : Nat) (d : Divider) : Divider := { d with timer := d.timer.map (· - a) }

/-- Timers of open return windows count timescale running (R142). -/
def runWindowTimer (a : Nat) (m : Option DelayMeas) : Option DelayMeas :=
  m.map fun m => { m with window := m.window.map fun w => { w with timer := w.timer - a } }

/-- OSC_IN_CYCLE. A cycle ordered before the boundary or the hold end that the cycle before it
completed is not taken: those come first (R5, R10, log entry 4). -/
def takeOscCycle (s : State) : State :=
  if s.tsu.due.isSome || holdEndDue s.tsu then s
  else
    let a := cycleAdvance s.tsu
    ((s.setTsu (advanceTsu s.tsu)).setCap
      { s.cap with div := s.cap.div.map (runDividerTimer a) }).setPtu
      { s.ptu with meas := s.ptu.meas.map (runWindowTimer a) }

/-- NEGATIVE_STEP_HOLD_END: the fraction begins to advance from 0; what the last cycle counted beyond
|s| is its first advance (R10). -/
def takeHoldEnd (s : State) : State :=
  match s.tsu.hold with
  | some h =>
    if h.length ≤ h.run then s.setTsu (setFraction (h.run - h.length) { s.tsu with hold := none })
    else s
  | none => s

/-! ### The label of the new second (R6, R7) -/

/-- What a boundary does to the scheduled leap. -/
inductive LeapFate where
  | kept | executed | missed
  deriving DecidableEq, Repr

structure LabelDecision where
  label : Label
  repeated : Bool
  fate : LeapFate
  deriving DecidableEq, Repr

/-- The table of R6: the new label from the old one where no SET-TIME is pending. -/
def labelByLeap (old : Label) (leap : Option ScheduledLeap) : LabelDecision :=
  match leap with
  | none => ⟨old + 1, false, .kept⟩
  | some l =>
    if old = l.target then
      match l.kind with
      | .insert => ⟨old, true, .executed⟩
      | .delete => ⟨old + 2, false, .executed⟩
    else if l.target.toNat < old.toNat then ⟨old + 1, false, .missed⟩
    else ⟨old + 1, false, .kept⟩

/-- The fate of a scheduled leap at a boundary that applies a SET-TIME to label `l` (R7). -/
def fateBySetTime (old l : Label) (leap : Option ScheduledLeap) : LeapFate :=
  match leap with
  | none => .kept
  | some p =>
    if old.toNat + 1 < p.target.toNat ∧ p.target.toNat < l.toNat then .missed
    else if p.target.toNat + 1 < l.toNat then .missed
    else .kept

/-- The decision of the boundary rule on label, REPEAT and leap (R6, R7). -/
def decideLabel (t : Tsu) : LabelDecision :=
  match t.setTime with
  | none => labelByLeap t.label t.leap
  | some p => ⟨p.label, false, fateBySetTime t.label p.label t.leap⟩

/-! ### The phase step of a boundary (R10) -/

def PendingStep.value : PendingStep → Int
  | .host s _ => s
  | .loop s => s

def PendingStep.origin : PendingStep → StepOrigin
  | .host _ _ => .host
  | .loop _ => .loop

/-- The start of the new second: the fraction at the overshoot, at s plus the overshoot, or held at 0
for |s| ps (R5, R10). -/
def startSecond (extra : Nat) (t : Tsu) : Tsu :=
  let t' := { t with due := none, hold := none, step := none, secondStep := 0, skipTo := 0 }
  match t.step with
  | none => setFraction extra t'
  | some p =>
    let v := p.value
    if 0 < v then
      setFraction (v.toNat + extra) { t' with secondStep := v, skipTo := v.toNat + extra }
    else if v < 0 then
      { t' with frac := 0, secondStep := v, hold := some ⟨v.natAbs, extra⟩ }
    else setFraction extra t'

/-! ### The step log (R13, R14) -/

/-- How many log entries a divider's boundaries have shown it: the steps of boundaries it has still
to take are not among them (R13, log entry 7). -/
def stepsSeen (s : State) (d : DividerId) : Nat :=
  s.tsu.logged - (s.wires.divBnd[d].filter fun b => b.step.any fun p => p.1 != 0).length

/-- Is a log entry still needed: by a divider whose open interval began before it, or by one that has
yet to take its boundary (R13, log entry 7)? -/
def entryNeeded (s : State) (l : LoggedStep) : Bool :=
  (List.finRange 4).any fun d =>
    let v := s.cap.div[d]
    (match v.chain with
      | some c => c.note < l.entry
      | none => false)
    || (stepsSeen s d < l.entry && v.state != .idle)

/-- Entries no divider needs are removed (R13). -/
def pruneLog (s : State) : State :=
  s.setTsu { s.tsu with stepLog := s.tsu.stepLog.filter (entryNeeded s) }

/-- A divider's interval chain ended: stamp, count and span discarded (R32). -/
def endChain (d : Divider) : Divider := { d with chain := none }

/-- A chain that still needs the entry with this number is ended (R14). -/
def endChainBefore (entry : Nat) (d : Divider) : Divider :=
  match d.chain with
  | some c => if c.note < entry then endChain d else d
  | none => d

/-- With four entries in the log the oldest is dropped, and the chains that needed it end (R14). -/
def dropOldest (s : State) : State :=
  if s.tsu.stepLog.length < stepLogSize then s
  else match s.tsu.stepLog with
    | [] => s
    | l :: rest =>
      (s.setTsu { s.tsu with stepLog := rest.drop (s.tsu.stepLog.length - stepLogSize) }).setCap
        { s.cap with div := s.cap.div.map (endChainBefore l.entry) }

/-- A step entered in the log with the label of its second; a step of 0 makes no entry (R13). -/
def enterStep (v : Int) (s : State) : State :=
  if v = 0 then s
  else
    let s := dropOldest (pruneLog s)
    s.setTsu { s.tsu with
      logged := s.tsu.logged + 1
      stepLog := s.tsu.stepLog ++ [⟨s.tsu.label, v, s.tsu.logged + 1⟩] }

/-! ### SECOND_BOUNDARY (R5) -/

/-- The label, REPEAT, time-set flag and schedule of the new second (R6, R7, R17). -/
def settleLabel (s : State) : State :=
  let t := s.tsu
  let d := decideLabel t
  let leap := if d.fate = .kept then t.leap else none
  let s := s.setTsu { t with
    label := d.label
    prevLabel := t.label
    second := t.second + 1
    repeated := d.repeated
    timeSet := t.timeSet || t.setTime.isSome
    setTime := none
    leap := leap }
  handIfChanged codeLeap t.leap.isSome leap.isSome
    (handIfChanged codeTimeNotSet (!t.timeSet) (!(t.timeSet || t.setTime.isSome)) s)

/-- The warm-up count down by 1; when it reaches 0, WARM-UP goes absent (R17, log entry 37) and the
warm-up end is raised (R16). -/
def countWarmUp (s : State) : State :=
  if s.tsu.warmCount = 0 then s
  else
    let s' := s.setTsu { s.tsu with warmCount := s.tsu.warmCount - 1 }
    if s.tsu.warmCount = 1 then
      handCond codeWarmUp false (s'.setWires { s'.wires with warmEnd := true })
    else s'

/-- The parked requests the boundary decides: SET-TIME, the leap, a HOST step (R6, R7, R10). `t` is
the TSU before the boundary, `label` the new label. -/
def completeAtBoundary (t : Tsu) (label : Label) (s : State) : State :=
  let s := match t.setTime with
    | none => s
    | some p => complete p.slot .ok label (labelWords (labelByLeap t.label t.leap).label) s
  let s := match t.leap, (decideLabel t).fate with
    | some l, .executed => complete l.slot .ok label [] s
    | some l, .missed => complete l.slot .missed label [] s
    | _, _ => s
  match t.step with
  | some (.host _ slot) => complete slot .ok label [] s
  | _ => s

/-- The attributes of the new second (R5). `t` is the TSU before the boundary, `n` after it. -/
def boundaryOf (t n : Tsu) : Boundary where
  label := n.label
  endedLabel := t.label
  second := n.second
  repeated := n.repeated
  timeSet := n.timeSet
  setTime := t.setTime.isSome
  leap := n.leap.map (·.kind)
  warmUp := 0 < t.warmCount
  step := t.step.map fun p => (p.value, p.origin)

/-- The boundary delivered to every block that takes it (R5). -/
def deliver (b : Boundary) (w : Wires) : Wires :=
  { w with
    ppsBnd := w.ppsBnd.map (· ++ [b])
    divBnd := w.divBnd.map (· ++ [b])
    pkuBnd := w.pkuBnd ++ [b]
    lpuBnd := w.lpuBnd ++ [b]
    houBnd := w.houBnd ++ [b]
    ptuBnd := w.ptuBnd ++ [b]
    aluBnd := w.aluBnd ++ [b]
    xuBnd := w.xuBnd ++ [b] }

/-- The step value of a TSU's pending step, 0 where none is pending. -/
def pendingValue (t : Tsu) : Int := match t.step with
  | none => 0
  | some p => p.value

/-- SECOND_BOUNDARY: the boundary rule of R5 in its order, then the delivery; a logged step that no
divider needs goes (R13); a positive step resumes the ports' signals (R128). -/
def takeSecondBoundary (s : State) : State :=
  match s.tsu.due with
  | none => s
  | some extra =>
    let t := s.tsu
    let v := pendingValue t
    let s := settleLabel s
    let s := s.setTsu (startSecond extra s.tsu)
    let s := enterStep v s
    let s := countWarmUp s
    let s := completeAtBoundary t s.tsu.label s
    let s := s.setWires (deliver (boundaryOf t s.tsu) s.wires)
    let s := if v = 0 then s else pruneLog s
    if 0 < v then resumePorts s else s

/-! ### The loop's notices to the TSU (R11, R12) -/

/-- LOOP_STEP_ORDER: the loop's step becomes the pending step. An order that meets a HOST step is
stale, since the loop has then left ACQUIRE, and is dropped (R12, log entry 19). -/
def takeLoopStep (s : State) : State :=
  match s.wires.tsuIn with
  | .step v :: rest =>
    let s := s.setWires { s.wires with tsuIn := rest }
    match s.tsu.step with
    | some (.host _ _) => s
    | _ => s.setTsu { s.tsu with step := some (.loop v) }
  | _ => s

/-- The pending step withdrawn on the loop's state change: a LOOP step when the state before was
ACQUIRE (R12, R80), a HOST step, completed NOT-PERMITTED, when the loop leaves FREE-RUN or HOLDOVER
(R11). The HOST step is the one pending as the TSU takes the change, also where it was accepted after the
loop had left and come back to HOLDOVER (DESIGN CHOICE, log entry 58). -/
def withdrawStep (before after : LoopState) (s : State) : State :=
  match s.tsu.step with
  | some (.loop _) =>
    if before = .acquire then s.setTsu { s.tsu with step := none } else s
  | some (.host _ slot) =>
    if (before = .freeRun ∨ before = .holdover) ∧ after ≠ .freeRun ∧ after ≠ .holdover then
      completeNow slot .notPermitted (s.setTsu { s.tsu with step := none })
    else s
  | none => s

/-- LOOP_STATE_CHANGE_TSU. -/
def takeLoopStateTsu (s : State) : State :=
  match s.wires.tsuIn with
  | .state before after :: rest =>
    withdrawStep before after (s.setWires { s.wires with tsuIn := rest })
  | _ => s

/-! ### Requests of the TSU (R8, R9, R11) -/

/-- SET-TIME (R8). -/
def takeSetTime (n : Slot) (p : Params) (s : State) : State :=
  match p.label4 0 with
  | none => completeNow n .invalid s
  | some l =>
    let s := match s.tsu.setTime with
      | some old => completeNow old.slot .superseded s
      | none => s
    s.setTsu { s.tsu with setTime := some ⟨l, n⟩ }

/-- STEP-PHASE (R11). A LOOP step still pending in FREE-RUN or HOLDOVER, whose withdrawal the TSU has
yet to take (R12), is replaced by the host's step (log entry 19). -/
def takeStepPhase (n : Slot) (p : Params) (s : State) : State :=
  let v := p.i3 0
  if v < -(stepBound : Int) ∨ (stepBound : Int) < v then completeNow n .invalid s
  else if s.lpu.state ≠ .freeRun ∧ s.lpu.state ≠ .holdover then completeNow n .notPermitted s
  else
    let s := match s.tsu.step with
      | some (.host _ old) => completeNow old .superseded s
      | _ => s
    s.setTsu { s.tsu with step := some (.host v n) }

/-- The leap form of a SCHEDULE-LEAP (R182). -/
inductive LeapForm where
  | schedule (k : LeapKind)
  | cancel
  deriving DecidableEq, Repr

def leapFormOf (w : Word) : Option LeapForm :=
  if w = 1 then some (.schedule .insert) else if w = 2 then some (.schedule .delete)
  else if w = 3 then some .cancel else none

/-- A scheduled leap's request completed SUPERSEDED, where one is scheduled (R9). -/
def supersedeLeap (s : State) : State :=
  match s.tsu.leap with
  | some l => completeNow l.slot .superseded s
  | none => s

/-- The schedule set, with the change of LEAP-PENDING it makes (R9, R17). -/
def setLeap (l : Option ScheduledLeap) (s : State) : State :=
  handIfChanged codeLeap s.tsu.leap.isSome l.isSome (s.setTsu { s.tsu with leap := l })

/-- SCHEDULE-LEAP (R9, R183; order of the checks: log entry 20). -/
def takeScheduleLeap (n : Slot) (p : Params) (s : State) : State :=
  match leapFormOf (p.w 4) with
  | none => completeNow n .invalid s
  | some .cancel => completeNow n .ok (setLeap none (supersedeLeap s))
  | some (.schedule k) =>
    match p.label4 0 with
    | none => completeNow n .invalid s
    | some target =>
      if target.toNat < s.tsu.label.toNat then completeNow n .missed s
      else setLeap (some ⟨target, k, n⟩) (supersedeLeap s)

/-! ### Meanings -/

def execOscInCycle (s : State) : Host.Outcome State Fault Refusal := .next (takeOscCycle s)

def execSecondBoundary (s : State) : Host.Outcome State Fault Refusal :=
  .next (takeSecondBoundary s)

def execNegativeStepHoldEnd (s : State) : Host.Outcome State Fault Refusal :=
  .next (takeHoldEnd s)

def execLoopStepOrder (s : State) : Host.Outcome State Fault Refusal := .next (takeLoopStep s)

def execLoopStateChangeTsu (s : State) : Host.Outcome State Fault Refusal :=
  .next (takeLoopStateTsu s)

def execSetTime (s : State) : Host.Outcome State Fault Refusal :=
  .next (takeRequest 9 takeSetTime s)

def execStepPhase (s : State) : Host.Outcome State Fault Refusal :=
  .next (takeRequest 10 takeStepPhase s)

def execScheduleLeap (s : State) : Host.Outcome State Fault Refusal :=
  .next (takeRequest 11 takeScheduleLeap s)

end Sys2Proof.Machine
end

