-- ==== Sys2Proof/Machine/Capture.lean ====
section
/-! DEFINITION. The capture unit (02_reference_inputs.md): PPS channels and their windows, modulus
dividers and their interval chains, and the line status pins. -/

namespace Sys2Proof.Machine

open Config

/-- A raw measurement handed to the QSU as an arrival (R35, R49). -/
def handArrival (m : RawMeas) (s : State) : State :=
  s.setWires { s.wires with arrivals := s.wires.arrivals ++ [m] }

/-! ### PPS channels (R22 to R27) -/

def emptyRecord : CaptureRecord := ⟨none, none, 0, none⟩

/-- Is the channel's window-close event due: the half-point of the window's second reached, or for a
channel that waits for its first window that of the second it waits for, the boundary of that second
being taken (R22)? -/
def closeDue (c : PpsChannelId) (s : State) : Bool :=
  match s.cap.pps[c].window with
  | .idle => false
  | .waiting n => reached s.tsu n halfPoint && s.wires.ppsBnd[c].all fun b => n < b.second
  | .opened r => match r.bnd with
    | none => false
    | some b => reached s.tsu b.second halfPoint

/-- The window takes a boundary: the first after its opening is the window's boundary (R22, R24). -/
def noteBoundary (b : Boundary) (ch : PpsChannel) : PpsChannel :=
  match ch.window with
  | .opened r => { ch with window := .opened { r with bnd := r.bnd <|> some b } }
  | _ => ch

/-- PPS_CHANNEL_BOUNDARY (R24). A window whose close is due takes that first: its half-point came
before this boundary. -/
def takePpsBoundary (c : PpsChannelId) (s : State) : State :=
  if closeDue c s then s
  else match s.wires.ppsBnd[c] with
    | [] => s
    | b :: rest =>
      (s.setWires { s.wires with ppsBnd := s.wires.ppsBnd.set c rest }).updPps c (noteBoundary b)

/-- The stamp a channel gives an edge now (R21, R23). -/
def ppsStamp (c : PpsChannelId) (r : CaptureRecord) (s : State) : Stamp :=
  let rd := stampFor s.tsu s.wires.ppsBnd[c]
  ⟨rd.at_, rd.held, r.bnd.isSome⟩

/-- A leading edge in an open window (R23). -/
def recordLeading (st : Stamp) (r : CaptureRecord) : CaptureRecord :=
  match r.first with
  | none => { r with first := some st, count := 1 }
  | some _ => { r with count := satSucc r.count 15 }

/-- A trailing edge in an open window (R23). -/
def recordTrailing (st : Stamp) (r : CaptureRecord) : CaptureRecord :=
  if r.first.isSome && r.trail.isNone then { r with trail := some st } else r

/-- The record of an open window changed; a channel without one ignores its pin (R23, R27). -/
def onWindow (c : PpsChannelId) (f : CaptureRecord → CaptureRecord) (s : State) : State :=
  match s.cap.pps[c].window with
  | .opened r => s.updPps c fun ch => { ch with window := .opened (f r) }
  | _ => s

/-- PPS_LEADING_EDGE (R23). -/
def takeLeadingEdge (c : PpsChannelId) (s : State) : State :=
  onWindow c (fun r => recordLeading (ppsStamp c r s) r) s

/-- PPS_TRAILING_EDGE (R23). -/
def takeTrailingEdge (c : PpsChannelId) (s : State) : State :=
  onWindow c (fun r => recordTrailing (ppsStamp c r s) r) s

/-- The step applied at a boundary, 0 where none was (R24). -/
def stepOf (b : Boundary) : Int := match b.step with
  | none => 0
  | some p => p.1

/-- Offset of a stamp from the window's boundary (R24). -/
def stampOffset (step : Int) (st : Stamp) : Int :=
  if st.after then (st.at_.ps : Int) else (st.at_.ps : Int) - (psPerSecond : Int) + step

/-- Pulse width: trailing offset minus leading offset (R24). -/
def pulseWidth (step : Int) (r : CaptureRecord) : Option Int := do
  let a ← r.first
  let z ← r.trail
  some (stampOffset step z - stampOffset step a)

/-- The raw outcome of a window, by the first check that applies (R25). -/
def ppsOutcome (cfg : RefConfig) (step : Int) (r : CaptureRecord) : RawOutcome :=
  if r.first.isNone then .missing
  else if 2 ≤ r.count then .spurious
  else match pulseWidth step r with
    | none => .width
    | some w => if w < (cfg.wMin : Int) ∨ (cfg.wMax : Int) < w then .width else .clean

/-- Change of phase error: present when this measurement and the one before are CLEAN (R26, R50). -/
def phaseDelta (clean : Bool) (e : Option Int) (prev : Option PrevPhase) (step : Int) :
    Option Int := do
  let p ← prev
  let e ← e
  let before ← p.e
  if clean && p.clean then some (e - before + step) else none

/-- The raw measurement of a closing window whose boundary is `b` (R25, R26, R35). -/
def ppsMeasurement (c : PpsChannelId) (cfg : RefConfig) (b : Boundary) (r : CaptureRecord)
    (prev : Option PrevPhase) : RawMeas :=
  let step := stepOf b
  let out := ppsOutcome cfg step r
  let e := r.first.map fun st => -(stampOffset step st) + cfg.compensation
  { ref := ppsRef c, label := b.label, repeated := some b.repeated, outcome := out, e := e,
    delta := phaseDelta (out == .clean) e prev step, span := none, newChain := false,
    edges := r.count, width := pulseWidth step r, interval := none, minDelay := none, inSpan := 0,
    accepted := 0, rejected := 0 }

/-- WINDOW_CLOSE: the window is judged, its measurement handed, and the next window opened; a channel
that waited for its first half-point opens its first window (R22, R25, R26, R36). -/
def takeWindowClose (c : PpsChannelId) (s : State) : State :=
  if closeDue c s then
    match s.cap.pps[c].window with
    | .opened ⟨first, trail, count, some b⟩ =>
      let r : CaptureRecord := ⟨first, trail, count, some b⟩
      let m := ppsMeasurement c s.qsu.refs[ppsRef c].cfg b r s.cap.pps[c].prev
      let s := s.updPps c fun _ =>
        { window := .opened emptyRecord
          prev := some ⟨m.e, m.outcome == .clean⟩
          detailOffset := r.first.map (stampOffset (stepOf b))
          detailEdges := r.count
          detailWidth := m.width }
      handArrival m s
    | _ => s.updPps c fun ch => { ch with window := .opened emptyRecord }
  else s

/-- The ordinal of the second whose half-point comes next (R27). At a fraction of half a second or more
the half-point of the current second is past, also in the moment of the half-point itself, before its
WINDOW_CLOSE: the next is that of the following second (log entry 45). -/
def nextHalfPoint (t : Tsu) : Nat :=
  if t.hold.isNone && halfPoint ≤ t.frac then t.second + 1 else t.second

/-- A PPS channel takes its reference's new configuration (R27). -/
def configurePps (c : PpsChannelId) (enabled : Bool) (s : State) : State :=
  s.updPps c fun ch =>
    { ch with window := if enabled then .waiting (nextHalfPoint s.tsu) else .idle, prev := none }

/-! ### Dividers (R28 to R34) -/

/-- A divider's modulus: the nominal frequency of its reference (R28). -/
def modulus (d : DividerId) (s : State) : Nat := s.qsu.refs[divRef d].cfg.nominal

/-- DIVIDER_EDGE (R28). -/
def countEdge (m : Nat) (v : Divider) : Divider :=
  match v.state with
  | .idle => v
  | .loading => { v with state := .counting, count := if m = 1 then 0 else 1 }
  | .counting => { v with count := v.count + 1 }

def takeDividerEdge (d : DividerId) (s : State) : State := s.updDiv d (countEdge (modulus d s))

/-- An open chain counts a boundary (R29). -/
def countBoundary (v : Divider) : Divider :=
  { v with chain := v.chain.map fun c => { c with boundaries := c.boundaries + 1 } }

/-- DIVIDER_BOUNDARY (R29); log entries no longer needed go (R13). -/
def takeDividerBoundary (d : DividerId) (s : State) : State :=
  match s.wires.divBnd[d] with
  | [] => s
  | _ :: rest =>
    pruneLog
      ((s.setWires { s.wires with divBnd := s.wires.divBnd.set d rest }).updDiv d countBoundary)

/-- Has the divider's count reached its modulus (R28)? -/
def markerDue (d : DividerId) (s : State) : Bool :=
  s.cap.div[d].state == .counting && modulus d s ≤ s.cap.div[d].count

/-- Does the divider ignore its markers: a LINE divider with its pin inactive (R33)? -/
def markersIgnored (d : DividerId) (s : State) : Bool :=
  match divLine d with
  | none => false
  | some l => !s.cap.lineOk[l]

/-- Sum of the logged steps applied after a chain's opening marker, as far as the divider's
boundaries have shown them (R13, R30). -/
def stepsSince (note seen : Nat) (log : List LoggedStep) : Int :=
  ((log.filter fun l => note < l.entry && l.entry ≤ seen).map (·.step)).sum

/-- The interval between two markers (R30). -/
def markerInterval (c : Chain) (ps : Nat) (steps : Int) : Int :=
  (c.boundaries : Int) * (psPerSecond : Int) + (ps : Int) - (c.opening.ps : Int) - steps

/-- The raw measurement of a marker that closes an interval (R30, R35). -/
def markerMeasurement (d : DividerId) (cfg : RefConfig) (c : Chain) (at_ : Instant) (steps : Int) :
    RawMeas :=
  let interval := markerInterval c at_.ps steps
  let delta : Int := (c.span : Int) * (psPerSecond : Int) - interval
  { ref := divRef d, label := at_.label, repeated := none,
    outcome := if (c.span * cfg.gross : Nat) < delta.natAbs then .range else .clean,
    e := none, delta := some delta, span := some c.span, newChain := c.fresh, edges := 0,
    width := none, interval := some interval, minDelay := none, inSpan := 0, accepted := 0,
    rejected := 0 }

/-- The chain a used marker opens (R29, R30). -/
def openChain (at_ : Instant) (note : Nat) (fresh : Bool) : Chain := ⟨at_, 0, 1, note, fresh⟩

/-- A marker that is not ignored (R29 to R32). The missing timer is re-armed; a held stamp ends the
chain; otherwise the marker opens a chain or closes an interval and opens the next. -/
def useMarker (d : DividerId) (s : State) : State :=
  let rd := stampFor s.tsu s.wires.divBnd[d]
  let seen := stepsSeen s d
  let rearm (v : Divider) : Divider := { v with timer := some missingPeriod }
  if rd.held then s.updDiv d fun v => endChain (rearm v)
  else match s.cap.div[d].chain with
    | none => s.updDiv d fun v => { rearm v with chain := some (openChain rd.at_ seen true) }
    | some c =>
      let m := markerMeasurement d s.qsu.refs[divRef d].cfg c rd.at_
        (stepsSince c.note seen s.tsu.stepLog)
      handArrival m (s.updDiv d fun v =>
        { rearm v with
          chain := some (openChain rd.at_ seen false)
          detailInterval := m.interval
          detailSpan := m.span })

/-- MARKER: the count that has reached the modulus starts again (R28); the marker is used or ignored
(R30, R33). -/
def takeMarker (d : DividerId) (s : State) : State :=
  if markerDue d s then
    let m := modulus d s
    let s := s.updDiv d fun v => { v with count := v.count - m }
    if markersIgnored d s then s else pruneLog (useMarker d s)
  else s

/-- The raw measurement of a missing-timer expiry (R31, R35). -/
def missingMeasurement (d : DividerId) (label : Label) : RawMeas :=
  { ref := divRef d, label := label, repeated := none, outcome := .missing, e := none,
    delta := none, span := none, newChain := false, edges := 0, width := none, interval := none,
    minDelay := none, inSpan := 0, accepted := 0, rejected := 0 }

/-- The chain after a missing-timer expiry: the span up by 1, ended at the fourth (R31, R32). -/
def missChain (c : Chain) : Option Chain :=
  if 4 ≤ c.span then none else some { c with span := c.span + 1 }

/-- MISSING_TIMER_EXPIRY (R31). -/
def takeMissingExpiry (d : DividerId) (s : State) : State :=
  if s.cap.div[d].timer = some 0 then
    let m := missingMeasurement d (readingFor s.tsu s.wires.divBnd[d]).at_.label
    pruneLog (handArrival m (s.updDiv d fun v =>
      { v with
        timer := some missingPeriod
        chain := v.chain.bind missChain
        detailInterval := none
        detailSpan := none }))
  else s

/-- A divider takes its reference's new configuration (R28). -/
def configureDivider (d : DividerId) (enabled : Bool) (s : State) : State :=
  pruneLog (s.updDiv d fun v =>
    { v with
      state := if enabled then .loading else .idle
      count := 0
      chain := none
      timer := if enabled then some missingPeriod else none })

/-- LINE_OK_CHANGE_CAPTURE: the level kept; going inactive ends the chain (R33). A level the pin
already has is no change. -/
def takeLineChange (l : LineId) (level : Bool) (s : State) : State :=
  if s.cap.lineOk[l] = level then s
  else
    let s := s.setCap { s.cap with lineOk := s.cap.lineOk.set l level }
    if level then s else pruneLog (s.updDiv (lineDiv l) endChain)

/-! ### Meanings -/

def execPpsChannelBoundary (c : PpsChannelId) (s : State) : Host.Outcome State Fault Refusal :=
  .next (takePpsBoundary c s)

def execPpsLeadingEdge (c : PpsChannelId) (s : State) : Host.Outcome State Fault Refusal :=
  .next (takeLeadingEdge c s)

def execPpsTrailingEdge (c : PpsChannelId) (s : State) : Host.Outcome State Fault Refusal :=
  .next (takeTrailingEdge c s)

def execWindowClose (c : PpsChannelId) (s : State) : Host.Outcome State Fault Refusal :=
  .next (takeWindowClose c s)

def execDividerEdge (d : DividerId) (s : State) : Host.Outcome State Fault Refusal :=
  .next (takeDividerEdge d s)

def execDividerBoundary (d : DividerId) (s : State) : Host.Outcome State Fault Refusal :=
  .next (takeDividerBoundary d s)

def execMarker (d : DividerId) (s : State) : Host.Outcome State Fault Refusal :=
  .next (takeMarker d s)

def execMissingTimerExpiry (d : DividerId) (s : State) : Host.Outcome State Fault Refusal :=
  .next (takeMissingExpiry d s)

def execLineOkChangeCapture (l : LineId) (level : Bool) (s : State) :
    Host.Outcome State Fault Refusal := .next (takeLineChange l level s)

end Sys2Proof.Machine
end

