-- ==== Sys2Proof/Machine/Packet.lean ====
section
/-! DEFINITION. The packet unit (03_packet_references.md): the sample board, the judgement of a
sample, the packet windows and their evaluation at each boundary. -/

namespace Sys2Proof.Machine

open Config

/-! ### A posted sample (R40, R186) -/

/-- Host word `i` of a sample slot, numbered from word 6. -/
def Sample.w (q : Sample) (i : Nat) : Word := q.words.toList.getD i 0

/-- The instant that starts at host word `i`: a label, then a picosecond field, three words each. -/
def Sample.instant (q : Sample) (i : Nat) : Instant :=
  ⟨((q.w (i + 2) ++ q.w (i + 1)) ++ q.w i : BitVec (16 + 16 + 16)),
   ((q.w (i + 5) ++ q.w (i + 4)) ++ q.w (i + 3) : BitVec (16 + 16 + 16)).toNat⟩

/-- The packet reference a reference index word names, if it names one (R40). -/
def packetOf (w : Word) : Option PacketId :=
  if w = 6 then some 0 else if w = 7 then some 1 else none

/-! ### Judgement (R42, R43, R46) -/

/-- Round trip d of the four instants (R42, R46). -/
def roundTrip (t1 t2 t3 t4 : Instant) : Int := instDiff t2 t1 + instDiff t4 t3

/-- Offset o of the four instants: halved toward minus infinity (R46). -/
def packetOffset (t1 t2 t3 t4 : Instant) : Int := (instDiff t2 t1 - instDiff t4 t3) / 2

/-- Is t2 too old at the present instant: more than 4 × 10¹² ps back, or earlier than the step mark
(R43)? A is earlier than B when B − A is positive (section 3.2). -/
def isStale (present t2 : Instant) (mark : Option Label) : Bool :=
  4 * (psPerSecond : Int) < instDiff present t2
  || (match mark with
      | none => false
      | some n => 0 < instDiff ⟨n, 0⟩ t2)

/-- Does the window hold a sample equal in all four instants (R42)? -/
def isDuplicate (w : List WindowEntry) (t1 t2 t3 t4 : Instant) : Bool :=
  w.any fun e => e.t1 == t1 && e.t2 == t2 && e.t3 == t3 && e.t4 == t4

/-- The verdict on a sample: the first reason of R42 that applies, else ACCEPTED. Earlier and later are
told by a positive difference (section 3.2). -/
def judgeSample (s : State) (q : Sample) (present : Instant) : Verdict :=
  let t1 := q.instant 0
  let t2 := q.instant 6
  let t3 := q.instant 12
  let t4 := q.instant 18
  match packetOf q.ref with
  | none => .badRef
  | some k =>
    if !s.qsu.refs[pktRef k].cfg.enabled then .badRef
    else if psPerSecond ≤ t1.ps || psPerSecond ≤ t2.ps || psPerSecond ≤ t3.ps
        || psPerSecond ≤ t4.ps then .badField
    else if 0 < instDiff t2 t3 then .order
    else if psPerSecond < (instDiff t2 t1).natAbs || psPerSecond < (instDiff t4 t3).natAbs then
      .range
    else if roundTrip t1 t2 t3 t4 < 0 then .negative
    else if isStale present t2 s.pku.stepMark then .stale
    else if 0 < instDiff t2 present then .future
    else if isDuplicate s.pku.refs[k].window t1 t2 t3 t4 then .duplicate
    else .accepted

/-- The window with an accepted sample at its newest end; a full window first loses its oldest entry
(R44). -/
def acceptInto (w : List WindowEntry) (e : WindowEntry) : List WindowEntry :=
  w.drop (w.length + 1 - windowSize) ++ [e]

/-- The entry of an accepted sample (R44, R46). -/
def entryOf (q : Sample) (label : Label) : WindowEntry :=
  let t1 := q.instant 0
  let t2 := q.instant 6
  let t3 := q.instant 12
  let t4 := q.instant 18
  ⟨t1, t2, t3, t4, packetOffset t1 t2 t3 t4, roundTrip t1 t2 t3 t4, label, false, false⟩

/-- A sample's mark on its reference: accepted into the window, or counted as rejected (R44, R45). -/
def countSample (v : Verdict) (e : WindowEntry) (p : PacketRef) : PacketRef :=
  if v = .accepted then
    { p with window := acceptInto p.window e, accepted := satSucc p.accepted count16Max }
  else { p with rejected := satSucc p.rejected count16Max }

/-- SAMPLE_READY, the write apart from its effect on the record latch: in an EMPTY slot the sample is
judged at once, its verdict and take label written, the sample accepted or counted, the slot returned
EMPTY, BOARD bumped (R40, R41, R45); in a READY slot the write is discarded (R40). -/
def judgeSlot (n : SampleSlot) (s : State) : State :=
  let q := s.pku.board[n]
  if q.state = .ready then s
  else
    let present := (readingFor s.tsu s.wires.pkuBnd).at_
    let v := judgeSample s q present
    let returned : Sample := { q with state := .empty, verdict := v, takeLabel := present.label }
    let s := s.setPku { s.pku with board := s.pku.board.set n returned }
    let s := match packetOf q.ref with
      | none => s
      | some k => s.updPacket k (countSample v (entryOf q present.label))
    bump clsBoard s

/-! ### Evaluation (R47 to R50) -/

/-- Is an entry in span of the second labelled `o` that ends (R48)? -/
def inSpanOf (o : Label) (span : Nat) (e : WindowEntry) : Bool :=
  let x := instDiff e.t2 ⟨o, 0⟩
  decide (x < (psPerSecond : Int) ∧ -(((span : Int) - 1) * (psPerSecond : Int)) ≤ x)

/-- The smallest d among the entries in span and the position of the newest entry that has it (R48);
`i` is the position of the list's first entry. -/
def chooseFrom : Nat → List WindowEntry → Option (Nat × WindowEntry)
  | _, [] => none
  | i, e :: rest =>
    match chooseFrom (i + 1) rest with
    | none => if e.inSpan then some (i, e) else none
    | some (j, c) => if e.inSpan && e.d < c.d then some (i, e) else some (j, c)

/-- The window with this evaluation's in-span marks (R54). -/
def markSpan (o : Label) (span : Nat) (w : List WindowEntry) : List WindowEntry :=
  w.map fun e => { e with inSpan := inSpanOf o span e, chosen := false }

/-- The window with its chosen mark set (R54). -/
def markChosen (c : Option (Nat × WindowEntry)) (w : List WindowEntry) : List WindowEntry :=
  match c with
  | none => w
  | some (i, _) => w.modify i fun e => { e with chosen := true }

/-- The raw measurement of an evaluation (R48, R49). `o` and `rep` are the label and REPEAT of the
second that ended, `step` what the boundary applies. -/
def packetMeasurement (k : PacketId) (cfg : RefConfig) (o : Label) (rep : Bool) (step : Int)
    (p : PacketRef) (chosen : Option (Nat × WindowEntry)) (n : Nat) : RawMeas :=
  let e := chosen.map fun c => -c.2.o + cfg.compensation - step
  let out : RawOutcome := match chosen with
    | none => .missing
    | some c => if c.2.d ≤ (cfg.delayLimit : Int) then .clean else .delay
  { ref := pktRef k, label := o, repeated := some rep, outcome := out, e := e,
    delta := phaseDelta (out == .clean) e p.prev step, span := none, newChain := false, edges := 0,
    width := none, interval := none, minDelay := chosen.map (·.2.d), inSpan := n,
    accepted := p.accepted, rejected := p.rejected }

/-- The counts of the ending second placed in the detail and set to 0 (R45). -/
def turnCounts (p : PacketRef) : PacketRef :=
  { p with accepted := 0, rejected := 0, lastAccepted := p.accepted, lastRejected := p.rejected }

/-- One reference evaluated at a boundary (R48 to R50); a disabled one only turns its counts (R45,
R52). An evaluation without a chosen sample leaves none in the detail (log entry 48). -/
def evaluatePacket (b : Boundary) (s : State) (k : PacketId) : State :=
  let cfg := s.qsu.refs[pktRef k].cfg
  let p := s.pku.refs[k]
  if cfg.enabled then
    let w := markSpan s.pku.label cfg.span p.window
    let chosen := chooseFrom 0 w
    let n := (w.filter (·.inSpan)).length
    let m := packetMeasurement k cfg s.pku.label s.pku.repeated (stepOf b) p chosen n
    handArrival m (s.updPacket k fun p => turnCounts
      { p with
        window := markChosen chosen w
        prev := some ⟨m.e, m.outcome == .clean⟩
        lastInSpan := n
        lastChosen := chosen.map fun c => ⟨c.2.t2, c.2.o, c.2.d⟩ })
  else s.updPacket k turnCounts

/-- The step mark and the windows after the evaluation (R47). A SET-TIME beside a pending step of 0,
which fits no row of R47's table, acts as a SET-TIME without a step: the mark becomes none (log
entry 44). -/
def settleMark (b : Boundary) (p : Pku) : Pku :=
  if stepOf b ≠ 0 then
    { p with stepMark := some b.label, refs := p.refs.map fun r => { r with window := [] } }
  else if b.setTime then { p with stepMark := none }
  else p

/-- PACKET_EVALUATION: each reference evaluated, then the step mark and windows settled, and the label
and REPEAT of the new second learned (R47, R48). -/
def takePacketEvaluation (s : State) : State :=
  match s.wires.pkuBnd with
  | [] => s
  | b :: rest =>
    let s := s.setWires { s.wires with pkuBnd := rest }
    let s := (List.finRange 2).foldl (evaluatePacket b) s
    s.setPku { settleMark b s.pku with label := b.label, repeated := b.repeated }

/-- A packet reference takes its new configuration: its window cleared and its previous evaluation
discarded (R52). -/
def configurePacket (k : PacketId) (s : State) : State :=
  s.updPacket k fun p => { p with window := [], prev := none }

/-- A sample slot's host word written where the slot is EMPTY (R40, R186). -/
def writeSampleWord (w : Nat) (v : Word) (q : Sample) : Sample :=
  if q.state = .ready then q
  else if w = 1 then { q with ref := v }
  else if 6 ≤ w then
    { q with words := Vector.ofFn fun i : Fin 24 => if i.val + 6 = w then v else q.words[i] }
  else q

/-! ### Meanings -/

def execPacketEvaluation (s : State) : Host.Outcome State Fault Refusal :=
  .next (takePacketEvaluation s)

end Sys2Proof.Machine
end

