-- ==== Sys2Proof/Machine/Selection.lean ====
section
/-! DEFINITION. The qualification and selection unit (04_qualification_and_selection.md): the judgement
of measurements, the reference state machine, the selection review, and the QSU's five requests. -/

namespace Sys2Proof.Machine

open Config

/-! ### Selection (R70 to R77) -/

/-- A candidate: QUALIFIED with a priority of 1 to 15 (R70). -/
def isCandidate (e : RefEntry) : Bool :=
  e.state == .qualified && 1 ≤ e.cfg.priority && e.cfg.priority ≤ 15

/-- The best candidate: the lowest priority number, the lowest index among equals (R70). -/
def bestCandidate (refs : Vector RefEntry 8) : Option Ref :=
  (List.finRange 8).foldl (fun best r =>
    if isCandidate refs[r] then
      match best with
      | none => some r
      | some b => if refs[r].cfg.priority < refs[b].cfg.priority then some r else best
    else best) none

/-- The review's result where no hold and no forced reference decides it (R71 lines 3 and 4, R72). -/
def automaticChoice (q : Qsu) : Option Ref :=
  match q.selected with
  | none => bestCandidate q.refs
  | some c =>
    if isCandidate q.refs[c] then
      match q.revertive, bestCandidate q.refs with
      | true, some b => if q.refs[b].cfg.priority < q.refs[c].cfg.priority then some b else some c
      | _, _ => some c
    else bestCandidate q.refs

/-- Is the QSU still in warm-up: the count above 0 (R71), or its end raised and still to be taken? In
the moment of warm-up end the second of two reviews selects, so the one before WARM_UP_END does not
(R76; for reviews of other events than a qualification DEDUCED, log entry 46). -/
def inWarmUp (s : State) : Bool := decide (0 < s.tsu.warmCount) || s.wires.warmEnd

/-- The review's result, `warm` saying whether the QSU is still in warm-up (R71, R76). -/
def reviewResult (warm : Bool) (q : Qsu) : Option Ref :=
  if warm || q.forcedHoldover then none
  else match q.forced with
    | some f => if isCandidate q.refs[f] then some f else automaticChoice q
    | none => automaticChoice q

/-- FORCE-INEFFECTIVE settled: present while a forced reference is named and not selected (R73). -/
def settleForce (s : State) : State :=
  let p := s.qsu.forced.isSome && s.qsu.forced != s.qsu.selected
  handIfChanged codeForce s.qsu.forceIneffective p
    (s.setQsu { s.qsu with forceIneffective := p })

/-- An event handed to the loop (R69, R77). -/
def handLoop (e : LoopEvent) (s : State) : State :=
  s.setWires { s.wires with loopIn := s.wires.loopIn ++ [e] }

/-- A selection change (R77): the selection replaced, the event handed to the loop, SELECT bumped. -/
def changeSelection (new : Option Ref) (fault : Bool) (s : State) : State :=
  let prev := s.qsu.selected
  bump clsSelect (handLoop (.selection prev new fault) (s.setQsu { s.qsu with selected := new }))

/-- The selection review (R71). `faulted` is the reference that the event at hand has faulted: a
change away from it has cause FAULT, every other change cause OTHER (R77). -/
def review (faulted : Option Ref) (s : State) : State :=
  let new := reviewResult (inWarmUp s) s.qsu
  settleForce
    (if new = s.qsu.selected then s
     else changeSelection new (faulted.isSome && faulted == s.qsu.selected) s)

/-! ### The reference state machine (R62 to R65) -/

/-- An entry as it enters a state: counts and fault cause (R62). -/
def enterEntry (st : RefState) (cause : Option Cause) (e : RefEntry) : RefEntry :=
  match st with
  | .qualified => { e with state := st, cause := none, badCount := 0, dwellCount := 0 }
  | .faulted =>
    { e with state := st, cause := cause, qualifyCount := 0, badCount := 0, dwellCount := 0 }
  | _ => { e with state := st, cause := none, qualifyCount := 0, badCount := 0, dwellCount := 0 }

/-- A reference enters a state, without the review: REFERENCE-FAULT n changes on entering or leaving
FAULTED (R62). -/
def setRefState (r : Ref) (st : RefState) (cause : Option Cause) (s : State) : State :=
  let old := s.qsu.refs[r].state
  handIfChanged (codeRefFault r) (old == .faulted) (st == .faulted)
    (s.updRef r (enterEntry st cause))

/-- A reference enters a state; entering or leaving QUALIFIED runs the review (R62, R71). -/
def enterState (r : Ref) (st : RefState) (cause : Option Cause) (s : State) : State :=
  let old := s.qsu.refs[r].state
  let s := setRefState r st cause s
  if (old == .qualified) == (st == .qualified) then s
  else review (if st = .faulted then some r else none) s

/-- Is the reference's LINE-x-OK pin inactive, as the QSU knows it (R58, R65, R67)? -/
def lineDown (r : Ref) (q : Qsu) : Bool :=
  if r.val = 4 then !q.lineOk[0] else if r.val = 5 then !q.lineOk[1] else false

/-- The judged outcome of a raw measurement: `none` is clean (R60). -/
def judge (s : State) (m : RawMeas) : Option Cause :=
  let cfg := s.qsu.refs[m.ref].cfg
  match m.outcome with
  | .missing => some .missing
  | .spurious => some .spurious
  | .width => some .width
  | .range => some .range
  | .delay => some .delay
  | .clean =>
    let carriesPhase := refKind m.ref == .pps || refKind m.ref == .pkt
    let n := if carriesPhase then 1 else m.span.getD 1
    if m.delta.any fun d => n * cfg.freqTol < d.natAbs then some .toleranceFreq
    else if carriesPhase && s.qsu.selected != some m.ref && s.lpu.state == .track
        && m.e.any fun e => cfg.phaseTol < e.natAbs then some .tolerancePhase
    else none

/-- The record of a judged measurement (R61). -/
def lastOf (m : RawMeas) (judged : Option Cause) : LastMeas :=
  ⟨m.label, m.repeated.getD false, m.outcome, judged, m.e, m.delta, m.span, m.newChain, m.minDelay⟩

/-- What a judged arrival does to its reference's state (R63, R64, R65). -/
def advanceRef (r : Ref) (judged : Option Cause) (s : State) : State :=
  let e := s.qsu.refs[r]
  match e.state with
  | .disabled => s
  | .qualifying =>
    match judged with
    | none =>
      let s := s.updRef r fun e => { e with qualifyCount := e.qualifyCount + 1 }
      if e.cfg.qualifyTime ≤ e.qualifyCount + 1 then enterState r .qualified none s else s
    | some c => enterState r .faulted (some c) s
  | .qualified =>
    match judged with
    | none => s.updRef r fun e => { e with badCount := 0 }
    | some c =>
      let s := s.updRef r fun e => { e with badCount := e.badCount + 1 }
      if e.cfg.badLimit < e.badCount + 1 then enterState r .faulted (some c) s else s
  | .faulted =>
    if e.dwellCount < e.cfg.dwell then
      s.updRef r fun e => { e with dwellCount := e.dwellCount + 1 }
    else if judged.isNone && e.declaredValid && !lineDown r s.qsu then
      enterState r .qualifying none s
    else s

/-- The notice for an arrival of the selected reference (R69). -/
def noticeOf (m : RawMeas) (judged : Option Cause) : LoopEvent :=
  match judged with
  | none => .forwarded m.ref m.label m.e m.delta m.span m.newChain
  | some c => .unusable m.ref m.label c

/-- A raw measurement judged: discarded for a DISABLED reference, else recorded, acted on, and a
notice handed when its reference was selected before and still is (R60, R61, R69). -/
def judgeArrival (m : RawMeas) (s : State) : State :=
  if s.qsu.refs[m.ref].state = .disabled then s
  else
    let was := s.qsu.selected == some m.ref
    let judged := judge s m
    let s := s.updRef m.ref fun e => { e with last := some (lastOf m judged) }
    let s := advanceRef m.ref judged s
    if was && s.qsu.selected == some m.ref then handLoop (noticeOf m judged) s else s

/-- MEASUREMENT_ARRIVAL: the oldest waiting arrival of the reference (R35, R60). -/
def takeArrival (r : Ref) (s : State) : State :=
  match takeFirst (fun m : RawMeas => m.ref == r) s.wires.arrivals with
  | none => s
  | some (m, rest) => judgeArrival m (s.setWires { s.wires with arrivals := rest })

/-! ### Faults from outside (R66 to R68) -/

/-- JUMP_VERDICT (R68). -/
def takeVerdict (s : State) : State :=
  match s.wires.verdicts with
  | [] => s
  | r :: rest =>
    let s := s.setWires { s.wires with verdicts := rest }
    if s.qsu.refs[r].state = .qualified then enterState r .faulted (some .jump) s else s

/-- The reference of a LINE input (R67). -/
def lineRef (l : LineId) : Ref := ⟨l.val + 4, by omega⟩

/-- LINE_OK_CHANGE_QSU (R67). A level the pin already has is no change. -/
def takeLineChangeQsu (l : LineId) (level : Bool) (s : State) : State :=
  if s.qsu.lineOk[l] = level then s
  else
    let s := s.setQsu { s.qsu with lineOk := s.qsu.lineOk.set l level }
    if level || s.qsu.refs[lineRef l].state == .disabled then s
    else enterState (lineRef l) .faulted (some .loss) s

/-- WARM_UP_END: the QSU takes the end of warm-up and runs its review, the first that can select (R76),
and the loop clears its warm-up hold (R82). It comes
after the loop has taken the boundary that raised it (R16, log entry 9); WARM-UP went absent at that
boundary (R17, log entry 37). -/
def takeWarmUpEnd (s : State) : State :=
  if s.wires.warmEnd && s.wires.lpuBnd.isEmpty then
    let s := s.setWires { s.wires with warmEnd := false }
    let s := s.setLpu { s.lpu with warmHold := false }
    review none s
  else s

/-! ### Requests (R57 to R59, R66, R74, R75) -/

/-- The new fields handed to the block that measures the reference (R58 step 2). -/
def configureMeasuring (r : Ref) (enabled : Bool) (s : State) : State :=
  if h : r.val < 2 then configurePps ⟨r.val, h⟩ enabled s
  else if h2 : r.val < 6 then configureDivider ⟨r.val - 2, by omega⟩ enabled s
  else configurePacket ⟨r.val - 6, by omega⟩ s

/-- The state a configuration starts a reference in (R58 step 3). -/
def startState (r : Ref) (enabled : Bool) (s : State) : RefState × Option Cause :=
  if !enabled then (.disabled, none)
  else if !s.qsu.refs[r].declaredValid then (.faulted, some .declared)
  else if lineDown r s.qsu then (.faulted, some .loss)
  else (.qualifying, none)

/-- A configuration applied (R58). -/
def applyRefConfig (r : Ref) (cfg : RefConfig) (s : State) : State :=
  let s := s.updRef r fun e => { e with cfg := cfg }
  let s := configureMeasuring r cfg.enabled s
  let st := startState r cfg.enabled s
  let s := setRefState r st.1 st.2 s
  let s := s.updRef r fun e => { e with last := none }
  review none s

/-- CONFIGURE-REFERENCE (R57). -/
def takeConfigureReference (n : Slot) (p : Params) (s : State) : State :=
  match asIndex 8 (p.w 0) with
  | none => completeNow n .invalid s
  | some r =>
    match refConfigOf p r with
    | none => completeNow n .invalid s
    | some (cfg, clamped) =>
      completeNow n (if clamped then .adjusted else .ok) (applyRefConfig r cfg s)

/-- Does the held CONFIGURE-REFERENCE, in range, enable a reference with a measurement handed and not
yet taken? Such a measurement was completed under the old configuration and is never judged under the
new one, so it is taken first (R35, R52, R58, log entry 18). A disabling request does not wait: the
measurement is then discarded (R60). -/
def configRefWaits (s : State) : Bool :=
  match heldSlot 1 s with
  | none => false
  | some n =>
    let p : Params := s.xu.slots[n].params
    match asIndex 8 (p.w 0) with
    | none => false
    | some r => (refConfigOf p r).any (·.1.enabled) && s.wires.arrivals.any fun m => m.ref == r

/-- SET-PRIORITY (R59). -/
def takeSetPriority (n : Slot) (p : Params) (s : State) : State :=
  match asIndex 8 (p.w 0), inRange 0 15 (p.n1 1) with
  | some r, some v =>
    completeNow n .ok
      (review none (s.updRef r fun e => { e with cfg := { e.cfg with priority := v } }))
  | _, _ => completeNow n .invalid s

/-- What a declaration does (R66). -/
def declareRef (r : Ref) (valid : Bool) (s : State) : State :=
  if s.qsu.refs[r].declaredValid = valid then s
  else
    let s := s.updRef r fun e => { e with declaredValid := valid }
    if valid || s.qsu.refs[r].state == .disabled then s
    else enterState r .faulted (some .declared) s

/-- DECLARE-REFERENCE (R66). -/
def takeDeclareReference (n : Slot) (p : Params) (s : State) : State :=
  match asIndex 8 (p.w 0), p.flag 1 with
  | some r, some v => completeNow n .ok (declareRef r v s)
  | _, _ => completeNow n .invalid s

/-- A forced reference word: an index, or 0xFFFF for none (R74, R181). -/
def forcedOf (w : Word) : Option (Option Ref) :=
  if w = 0xFFFF then some none else (asIndex 8 w).map some

/-- SELECT-MODE (R74). -/
def takeSelectMode (n : Slot) (p : Params) (s : State) : State :=
  match p.flag 0, forcedOf (p.w 1) with
  | some rev, some f =>
    completeNow n .ok (review none (s.setQsu { s.qsu with revertive := rev, forced := f }))
  | _, _ => completeNow n .invalid s

/-- Forced holdover set or cleared and the review run; the value already held changes nothing
(R75). -/
def setForcedHoldover (v : Bool) (s : State) : State :=
  if s.qsu.forcedHoldover = v then s
  else review none (s.setQsu { s.qsu with forcedHoldover := v })

/-- HOLDOVER-CONTROL (R75): 1 enter, 2 leave (R182). -/
def takeHoldoverControl (n : Slot) (p : Params) (s : State) : State :=
  if p.w 0 = 1 then
    if s.lpu.state = .freeRun then completeNow n .notPermitted s
    else completeNow n .ok (setForcedHoldover true s)
  else if p.w 0 = 2 then completeNow n .ok (setForcedHoldover false s)
  else completeNow n .invalid s

/-! ### Meanings -/

def execMeasurementArrival (r : Ref) (s : State) : Host.Outcome State Fault Refusal :=
  .next (takeArrival r s)

def execJumpVerdict (s : State) : Host.Outcome State Fault Refusal := .next (takeVerdict s)

def execLineOkChangeQsu (l : LineId) (level : Bool) (s : State) :
    Host.Outcome State Fault Refusal := .next (takeLineChangeQsu l level s)

def execWarmUpEnd (s : State) : Host.Outcome State Fault Refusal := .next (takeWarmUpEnd s)

def execConfigureReference (s : State) : Host.Outcome State Fault Refusal :=
  .next (if configRefWaits s then s else takeRequest 1 takeConfigureReference s)

def execSetPriority (s : State) : Host.Outcome State Fault Refusal :=
  .next (takeRequest 2 takeSetPriority s)

def execDeclareReference (s : State) : Host.Outcome State Fault Refusal :=
  .next (takeRequest 3 takeDeclareReference s)

def execSelectMode (s : State) : Host.Outcome State Fault Refusal :=
  .next (takeRequest 4 takeSelectMode s)

def execHoldoverControl (s : State) : Host.Outcome State Fault Refusal :=
  .next (takeRequest 5 takeHoldoverControl s)

end Sys2Proof.Machine
end

