-- ==== Sys2Proof/Machine/Loop.lean ====
section
/-! DEFINITION. The steering loop (05_the_steering_loop.md): selection changes, gating, the
proportional-integral computation, lock and unlock, the pseudo-phase, and CONFIGURE-LOOP. -/

namespace Sys2Proof.Machine

open Config

/-- An event handed to the holdover unit (R80, R81, R96, R97). -/
def handHou (e : HouEvent) (s : State) : State :=
  s.setWires { s.wires with houIn := s.wires.houIn ++ [e] }

/-- A notice handed to the timescale unit (R12, R80, R81, R86). -/
def handTsu (e : TsuEvent) (s : State) : State :=
  s.setWires { s.wires with tsuIn := s.wires.tsuIn ++ [e] }

/-! ### Selection changes (R79, R80, R82, R83) -/

/-- The loop state that a newly selected reference gives (R79). -/
def loopStateFor : Option Ref → LoopState
  | none => .holdover
  | some r => match refKind r with
    | .pps | .pkt => .acquire
    | .frq | .line => .assisted

/-- The integral at a selection change (R80). -/
def integralAt (before after : LoopState) (f i : Int) : Int :=
  if (before = .freeRun ∨ before = .holdover) ∧ (after = .acquire ∨ after = .assisted) then f else i

/-- LOOP_SELECTION_CHANGE: state, counts, pseudo-phase and integral set, then the guard pop, the
state change and the TSU's notice handed in that order, and NO-REFERENCE and FREE-RUNNING settled
(R79, R80, R82, R83, R93). -/
def changeLoopSelection (new : Option Ref) (fault : Bool) (s : State) : State :=
  let before := s.lpu.state
  let after := loopStateFor new
  let i := integralAt before after s.tsu.freq s.lpu.integral
  let noRef := s.lpu.noReference
  let freeR := s.lpu.freeRunning
  let s := s.setLpu { s.lpu with
    state := after
    integral := i
    lockCount := 0
    unlockCount := 0
    outliers := 0
    pseudo := none
    stepPending := false
    followed := new
    noReference := after == .holdover
    freeRunning := false }
  let s := if fault then handHou .guardPop s else s
  let s := handHou (.state before after i) s
  let s := handTsu (.state before after) s
  handIfChanged codeFreeRunning freeR false
    (handIfChanged codeNoReference noRef (after == .holdover) s)

def takeLoopSelection (s : State) : State :=
  match s.wires.loopIn with
  | .selection _ new fault :: rest =>
    changeLoopSelection new fault (s.setWires { s.wires with loopIn := rest })
  | _ => s

/-! ### The computation (R90, R91) -/

/-- Shifts of the state in which the measurement was taken (R90). -/
def shiftsOf (l : Lpu) : Nat × Nat :=
  if l.state = .acquire then (l.cfg.acqP, l.cfg.acqI) else (l.cfg.trackP, l.cfg.trackI)

/-- The computation of R90 with input x: P, I and F, each clamped as the rule says; F is written to
the TSU at once, last x and last P are set, and FREQUENCY-LIMIT is settled (R91). -/
def compute (x : Int) (s : State) : State :=
  let sh := shiftsOf s.lpu
  let lim := s.lpu.cfg.fLimit
  let p := roundShift x sh.1
  let i := clampAbs (s.lpu.integral + roundShift x sh.2) lim
  let f := clampAbs (p + i) lim
  let s := s.setLpu { s.lpu with integral := i, lastX := some x, lastP := some p }
  let s := s.setTsu { s.tsu with freq := f }
  settleFreqLimit (f != p + i) s

/-- A clamp of the input to ±t (R85, R89). -/
def limitInput (e : Int) (t : Nat) : Int := if 0 < e then (t : Int) else -(t : Int)

/-- Accuracy of the reference the loop follows (R97). -/
def followedAccuracy (s : State) : Nat :=
  match s.lpu.followed with
  | some r => s.qsu.refs[r].cfg.accuracy
  | none => 0

/-- The uncertainty value of a measurement (R97). -/
def uncertaintyOf (e : Int) (s : State) : Nat := min uMax (e.natAbs + followedAccuracy s)

/-- A loop state change of the loop's own: told to the HOU and the TSU, SELECT bumped (R81). -/
def ownStateChange (before after : LoopState) (s : State) : State :=
  bump clsSelect (handTsu (.state before after) (handHou (.state before after s.lpu.integral) s))

/-! ### ACQUIRE (R85, R86, R92) -/

/-- Is a LOOP step permitted (R86)? -/
def stepPermitted (l : Lpu) : Bool :=
  match l.cfg.policy with
  | .never => false
  | .firstLock => !l.firstLockSpent
  | .always => true

/-- The gate in ACQUIRE (R85, R86). -/
def gateAcquire (e : Int) (s : State) : State :=
  let ts := s.lpu.cfg.stepThreshold
  if e.natAbs ≤ ts then compute e s
  else if stepPermitted s.lpu then
    handTsu (.step (clampAbs e stepBound))
      (s.setLpu { s.lpu with stepPending := true, lastX := none, lastP := none })
  else compute (limitInput e ts) s

/-- Lock counting (R92). -/
def countLock (e : Int) (s : State) : State :=
  s.setLpu { s.lpu with
    lockCount := if e.natAbs ≤ s.lpu.cfg.lockThreshold then satSucc s.lpu.lockCount 255 else 0 }

/-- The change to TRACK when the lock count has reached the lock limit at a measurement that increased
it (R81, R92). -/
def checkLock (e : Int) (s : State) : State :=
  if e.natAbs ≤ s.lpu.cfg.lockThreshold ∧ s.lpu.cfg.lockLimit ≤ s.lpu.lockCount then
    ownStateChange .acquire .track (s.setLpu { s.lpu with
      state := .track, unlockCount := 0, outliers := 0, firstLockSpent := true })
  else s

/-- A forwarded measurement taken in ACQUIRE (R84). -/
def measureAcquire (e : Int) (s : State) : State :=
  let s := gateAcquire e s
  let s := countLock e s
  let s := handHou (.uncertainty (uncertaintyOf e s)) s
  checkLock e s

/-! ### TRACK (R88, R89, R96) -/

/-- An outlier (R88): counted, and at the third a JUMP verdict handed. -/
def takeOutlier (s : State) : State :=
  let n := s.lpu.outliers + 1
  let s := s.setLpu { s.lpu with lastX := none, lastP := none }
  if outlierLimit ≤ n then
    let s := s.setLpu { s.lpu with outliers := 0 }
    match s.lpu.followed with
    | some r => s.setWires { s.wires with verdicts := s.wires.verdicts ++ [r] }
    | none => s
  else s.setLpu { s.lpu with outliers := n }

/-- The F just written fed to the history (R96). -/
def feedHistory (s : State) : State := handHou (.feed s.tsu.freq) s

/-- A forwarded measurement taken in TRACK (R84, R88, R89). -/
def measureTrack (e : Int) (s : State) : State :=
  let cfg := s.lpu.cfg
  if cfg.stepThreshold < e.natAbs then takeOutlier s
  else
    let inside := e.natAbs ≤ cfg.unlockThreshold
    let s := compute (if inside then e else limitInput e cfg.unlockThreshold) s
    let n := if inside then 0 else satSucc s.lpu.unlockCount 255
    let s := s.setLpu { s.lpu with outliers := 0, unlockCount := n }
    let s := feedHistory s
    let s := handHou (.uncertainty (uncertaintyOf e s)) s
    if !inside && cfg.unlockLimit ≤ n then
      ownStateChange .track .acquire
        (s.setLpu { s.lpu with state := .acquire, lockCount := 0, outliers := 0 })
    else s

/-! ### ASSISTED (R93 to R96) -/

/-- The pseudo-phase after a forwarded measurement: 0 at an anchor, else the clamped sum (R93, R94). -/
def nextPseudo (pseudo : Option Int) (delta : Option Int) (newChain : Bool) : Int :=
  match pseudo with
  | none => 0
  | some v => if newChain then 0 else clampAbs (v + delta.getD 0) stepBound

/-- A forwarded measurement taken in ASSISTED (R84, R93 to R96). -/
def measureAssisted (delta : Option Int) (newChain : Bool) (s : State) : State :=
  let v := nextPseudo s.lpu.pseudo delta newChain
  let s := s.setLpu { s.lpu with pseudo := some v, lastE := some v }
  feedHistory (compute v s)

/-! ### Notices (R84) -/

/-- Does a notice for this reference apply (R84)? -/
def noticeApplies (r : Ref) (l : Lpu) : Bool :=
  l.followed == some r && l.state != .freeRun && l.state != .holdover && !l.stepPending

/-- A forwarded measurement that applies, by state (R84). -/
def takeMeasurement (e : Option Int) (delta : Option Int) (newChain : Bool) (s : State) : State :=
  match s.lpu.state with
  | .acquire =>
    let v := e.getD 0
    measureAcquire v (s.setLpu { s.lpu with lastE := some v })
  | .track =>
    let v := e.getD 0
    measureTrack v (s.setLpu { s.lpu with lastE := some v })
  | .assisted => measureAssisted delta newChain s
  | .freeRun => s
  | .holdover => s

/-- FORWARDED_MEASUREMENT. -/
def takeForwarded (s : State) : State :=
  match s.wires.loopIn with
  | .forwarded r _ e delta _ newChain :: rest =>
    let s := s.setWires { s.wires with loopIn := rest }
    if noticeApplies r s.lpu then takeMeasurement e delta newChain s else s
  | _ => s

/-- UNUSABLE_NOTICE: in ACQUIRE the lock count returns to 0, elsewhere nothing changes (R84, R92). -/
def takeUnusable (s : State) : State :=
  match s.wires.loopIn with
  | .unusable r _ _ :: rest =>
    let s := s.setWires { s.wires with loopIn := rest }
    if noticeApplies r s.lpu && s.lpu.state == .acquire then
      s.setLpu { s.lpu with lockCount := 0 }
    else s
  | _ => s

/-! ### LPU_BOUNDARY (R82, R87) -/

def boundaryLpu (b : Boundary) (s : State) : State :=
  let loopStep := b.step.any fun p => p.2 == .loop
  let free := s.lpu.freeRunning || (s.lpu.state == .freeRun && !s.lpu.warmHold)
  handIfChanged codeFreeRunning s.lpu.freeRunning free
    (s.setLpu { s.lpu with
      stepPending := s.lpu.stepPending && !loopStep
      freeRunning := free })

def takeLpuBoundary (s : State) : State :=
  match s.wires.lpuBnd with
  | [] => s
  | b :: rest => boundaryLpu b (s.setWires { s.wires with lpuBnd := rest })

/-! ### CONFIGURE-LOOP (R98, R99) -/

/-- A loop configuration applied: I and the F in force clamped to a lower F_limit, the latter with
FREQUENCY-LIMIT present (R4, R91, R99). -/
def applyLoopConfig (cfg : LoopConfig) (s : State) : State :=
  let f := clampAbs s.tsu.freq cfg.fLimit
  let changed := f != s.tsu.freq
  let s := s.setLpu { s.lpu with cfg := cfg, integral := clampAbs s.lpu.integral cfg.fLimit }
  let s := s.setTsu { s.tsu with freq := f }
  if changed then settleFreqLimit true s else s

def takeConfigureLoop (n : Slot) (p : Params) (s : State) : State :=
  match loopConfigOf p with
  | none => completeNow n .invalid s
  | some cfg => completeNow n .ok (applyLoopConfig cfg s)

/-! ### Meanings -/

def execLoopSelectionChange (s : State) : Host.Outcome State Fault Refusal :=
  .next (takeLoopSelection s)

def execForwardedMeasurement (s : State) : Host.Outcome State Fault Refusal :=
  .next (takeForwarded s)

def execUnusableNotice (s : State) : Host.Outcome State Fault Refusal := .next (takeUnusable s)

def execLpuBoundary (s : State) : Host.Outcome State Fault Refusal := .next (takeLpuBoundary s)

def execConfigureLoop (s : State) : Host.Outcome State Fault Refusal :=
  .next (takeRequest 6 takeConfigureLoop s)

end Sys2Proof.Machine
end

