-- ==== Sys2Proof/Machine/Holdover.lean ====
section
/-! DEFINITION. The holdover unit (06_holdover_and_time_uncertainty.md): the history stack, the
holdover frequency, the time uncertainty with its class and conditions, and the HOU's two requests. -/

namespace Sys2Proof.Machine

open Config

/-! ### Class and conditions (R113 to R115) -/

/-- The quality class: the first line of R113 that applies. -/
def classOf (h : Hou) : Nat :=
  if h.loop = .freeRun then 3
  else if h.cfg.uAlarm < h.u then 2
  else if h.loop = .track ∧ h.u ≤ class0Limit then 0
  else 1

/-- Presence of BUDGET-EXCEEDED (R114). -/
def budgetOf (h : Hou) : Bool := decide (h.cfg.uAlarm < h.u) && h.loop != .freeRun

/-- Presence of HOLDOVER-NOT-READY (R115). -/
def notReadyOf (h : Hou) : Bool :=
  (h.loop == .acquire || h.loop == .track || h.loop == .assisted) && decide (h.fill < h.cfg.ready)

/-- The class and both conditions brought to what they are derived from. -/
def derived (h : Hou) : Hou :=
  { h with quality := classOf h, budget := budgetOf h, notReady := notReadyOf h }

/-- The unit's new fields with class and conditions settled, each change of presence handed to the
alarm unit (R113 to R115). -/
def settleHou (h : Hou) (s : State) : State :=
  let n := derived h
  handIfChanged codeNotReady s.hou.notReady n.notReady
    (handIfChanged codeBudget s.hou.budget n.budget (s.setHou n))

/-! ### The history stack (R102 to R107) -/

/-- An interval has ended: INTERVAL_END comes before any other event of the unit (R102, log entry 8).
Host reads and the epoch report, which are no events of the unit, may come before it (log entry 54). -/
def intervalDue (h : Hou) : Bool := h.ended

/-- The interval in progress discarded (R104). -/
def discardInterval (h : Hou) : Hou := { h with sum := 0, count := 0, position := 0 }

/-- Level L_k, k from 1 to 8. -/
def levelAt (h : Hou) (k : Nat) : Int := h.levels.toList.getD (k - 1) 0

/-- D_learn from the levels, the fill and the interval in force (R106). -/
def learnedAging (h : Hou) : Option Int :=
  if 4 ≤ h.fill then
    some (roundDiv ((levelAt h 1 - levelAt h h.fill) * 86400) ((h.fill - 1) * h.cfg.interval))
  else none

def relearn (h : Hou) : Hou := { h with dLearn := learnedAging h }

/-- A value pushed onto the stack (R103). -/
def pushLevel (x : Int) (h : Hou) : Hou :=
  { h with
    levels := Vector.ofFn fun k : Fin 8 => if k.val = 0 then x else levelAt h k.val
    fill := min 8 (h.fill + 1) }

/-- One guard pop (R105). -/
def popLevel (h : Hou) : Hou :=
  if h.fill = 0 then h
  else
    { h with
      levels := Vector.ofFn fun k : Fin 8 => if k.val = 7 then levelAt h 8 else levelAt h (k.val + 2)
      fill := h.fill - 1 }

/-- `g` guard pops (R105). -/
def popLevels : Nat → Hou → Hou
  | 0, h => h
  | g + 1, h => popLevels g (popLevel h)

/-- The interval's end: pushed when well enough fed, its accumulator returned to 0 (R103). -/
def endInterval (h : Hou) : Hou :=
  let h := { h with ended := false }
  if h.cfg.interval ≤ 2 * h.count then
    relearn (discardInterval (pushLevel (roundDiv h.sum h.count) h))
  else discardInterval h

/-- A feed added to the accumulator (R102). -/
def addFeed (f : Int) (h : Hou) : Hou :=
  { h with sum := h.sum + f, count := satSucc h.count count16Max }

/-- A guard-pop notice taken (R105). -/
def guardPops (h : Hou) : Hou := relearn (discardInterval (popLevels h.cfg.guards h))

/-- The history cleared (R107). -/
def clearedHistory (h : Hou) : Hou :=
  relearn (discardInterval { h with levels := Vector.replicate 8 0, fill := 0 })

/-! ### The holdover frequency (R108, R109, R111, R118) -/

/-- Mean M: over the fill, or I with a fill of 0 (R108 step 1). -/
def meanOf (h : Hou) (i : Int) : Int :=
  if h.fill = 0 then i else roundDiv ((h.levels.toList.take h.fill).sum) h.fill

/-- The aging that a holdover entered now would take (R108 step 2). -/
def agingNow (h : Hou) : Int :=
  clampAbs (if h.cfg.fixedAging then h.cfg.dCfg else h.dLearn.getD h.cfg.dCfg) h.cfg.dMax

/-- The base: the mean carried from the middle of the history to its end (R108 step 3). -/
def baseOf (h : Hou) (m d : Int) : Int :=
  m + roundDiv (d * ((h.fill * h.cfg.interval : Nat) : Int)) 172800

/-- Holdover entry with the integral I (R108). -/
def enterHoldover (i : Int) (h : Hou) : Hou :=
  let d := agingNow h
  { h with dHold := d, fBase := baseOf h (meanOf h i) d, clock := 0, uEntry := h.u }

/-- The current aging estimate (R118). -/
def currentAging (h : Hou) : Int := if h.loop = .holdover then h.dHold else agingNow h

/-- F_hold before its clamp (R109 step 2). -/
def holdFrequency (h : Hou) : Int := h.fBase + roundDiv (h.dHold * (h.clock : Int)) 86400

/-- The growth of U in holdover (R112). -/
def holdUncertainty (h : Hou) : Nat :=
  min uMax (h.uEntry + h.cfg.yHold * h.clock
    + (roundDiv ((h.cfg.aging * h.clock ^ 2 : Nat) : Int) 172800).toNat)

/-- The line-reset base that the kept history gives, if it holds a level; `h` has its line-reset
values (R111). -/
def lineResetBase (h : Hou) : Option Int :=
  if h.fill = 0 then none else some (baseOf h (meanOf h 0) (agingNow h))

/-! ### HOU_BOUNDARY (R102, R109, R112) -/

/-- The position at a boundary: one more in TRACK and ASSISTED, and back to 0 where that reaches the
interval, which ends there (R101, R102). -/
def countPosition (h : Hou) : Hou :=
  if h.loop = .track ∨ h.loop = .assisted then
    if h.position + 1 < h.cfg.interval then { h with position := h.position + 1 }
    else { h with position := 0, ended := true }
  else h

/-- The holdover clock and U at a boundary, by the state the HOU sees (R109 steps 1 and 5, R112). -/
def growUncertainty (h : Hou) : Hou :=
  match h.loop with
  | .assisted => { h with u := min uMax (h.u + h.cfg.yAssist) }
  | .holdover =>
    let h := { h with clock := satSucc h.clock clockMax }
    { h with u := holdUncertainty h }
  | _ => h

/-- F_hold written to the TSU within ±F_limit, and FREQUENCY-LIMIT settled (R109 steps 2 to 4). -/
def writeHold (f : Int) (s : State) : State :=
  let c := clampAbs f s.lpu.cfg.fLimit
  settleFreqLimit (c != f) (s.setTsu { s.tsu with freq := c })

/-- The boundary values handed to the PTU and the XU (R113). -/
def handValues (v : HouValues) (s : State) : State :=
  s.setWires { s.wires with
    ptuValues := s.wires.ptuValues ++ [v], xuValues := s.wires.xuValues ++ [v] }

/-- The HOU's work at a boundary (R102, R109, R112, R113). -/
def workBoundary (s : State) : State :=
  let h := growUncertainty (countPosition s.hou)
  let s := if h.loop = .holdover then writeHold (holdFrequency h) s else s
  handValues ⟨h.u, classOf h⟩ (settleHou h s)

def takeHouBoundary (s : State) : State :=
  if intervalDue s.hou then s
  else match s.wires.houBnd with
    | [] => s
    | _ :: rest => workBoundary (s.setWires { s.wires with houBnd := rest })

/-- INTERVAL_END (R103). -/
def takeIntervalEnd (s : State) : State :=
  if intervalDue s.hou then settleHou (endInterval s.hou) s else s

/-! ### The loop's feeds, values, notices and state changes (R102, R104, R105, R108, R110, R112) -/

/-- HISTORY_FEED. -/
def takeFeed (s : State) : State :=
  if intervalDue s.hou then s
  else match s.wires.houIn with
    | .feed f :: rest =>
      settleHou (addFeed f s.hou) (s.setWires { s.wires with houIn := rest })
    | _ => s

/-- An uncertainty value is U at once, in the states whose row of R112 says so. -/
def takeValue (v : Nat) (h : Hou) : Hou :=
  if h.loop = .acquire ∨ h.loop = .track then { h with u := min uMax v } else h

/-- UNCERTAINTY_VALUE. -/
def takeUncertainty (s : State) : State :=
  if intervalDue s.hou then s
  else match s.wires.houIn with
    | .uncertainty v :: rest =>
      settleHou (takeValue v s.hou) (s.setWires { s.wires with houIn := rest })
    | _ => s

/-- GUARD_POP_NOTICE. -/
def takeGuardPop (s : State) : State :=
  if intervalDue s.hou then s
  else match s.wires.houIn with
    | .guardPop :: rest =>
      settleHou (guardPops s.hou) (s.setWires { s.wires with houIn := rest })
    | _ => s

/-- A loop state change as the HOU takes it: the interval discarded on leaving TRACK or ASSISTED
(R104), holdover entered (R108), the copy of the loop state set. -/
def changeHouLoop (before after : LoopState) (i : Int) (h : Hou) : Hou :=
  let h := if before = .track ∨ before = .assisted then discardInterval h else h
  let h := if after = .holdover then enterHoldover i h else h
  { h with loop := after }

/-- LOOP_STATE_CHANGE_HOU. -/
def takeLoopStateHou (s : State) : State :=
  if intervalDue s.hou then s
  else match s.wires.houIn with
    | .state before after i :: rest =>
      settleHou (changeHouLoop before after i s.hou) (s.setWires { s.wires with houIn := rest })
    | _ => s

/-! ### Requests (R107, R116, R117) -/

/-- A configuration applied; a changed interval discards the one in progress and has D_learn computed
again (R117). -/
def applyHoldConfig (cfg : HoldConfig) (h : Hou) : Hou :=
  let changed := cfg.interval ≠ h.cfg.interval
  let h := { h with cfg := cfg }
  if changed then relearn (discardInterval h) else h

def takeConfigureHoldover (n : Slot) (p : Params) (s : State) : State :=
  match holdConfigOf p with
  | none => completeNow n .invalid s
  | some (cfg, clamped) =>
    completeNow n (if clamped then .adjusted else .ok) (settleHou (applyHoldConfig cfg s.hou) s)

def takeClearHistory (n : Slot) (_ : Params) (s : State) : State :=
  completeNow n .ok (settleHou (clearedHistory s.hou) s)

/-! ### Meanings -/

def execHistoryFeed (s : State) : Host.Outcome State Fault Refusal := .next (takeFeed s)

def execUncertaintyValue (s : State) : Host.Outcome State Fault Refusal :=
  .next (takeUncertainty s)

def execGuardPopNotice (s : State) : Host.Outcome State Fault Refusal := .next (takeGuardPop s)

def execLoopStateChangeHou (s : State) : Host.Outcome State Fault Refusal :=
  .next (takeLoopStateHou s)

def execHouBoundary (s : State) : Host.Outcome State Fault Refusal := .next (takeHouBoundary s)

def execIntervalEnd (s : State) : Host.Outcome State Fault Refusal := .next (takeIntervalEnd s)

def execConfigureHoldover (s : State) : Host.Outcome State Fault Refusal :=
  .next (if intervalDue s.hou then s else takeRequest 7 takeConfigureHoldover s)

def execClearHistory (s : State) : Host.Outcome State Fault Refusal :=
  .next (if intervalDue s.hou then s else takeRequest 8 takeClearHistory s)

end Sys2Proof.Machine
end

