-- ==== Sys2Proof/Machine/PortWork.lean ====
section
/-! DEFINITION. The boundary work of the port unit and CONFIGURE-PORT (07_output_ports.md, sections
7.2, 7.4 and 7.5). -/

namespace Sys2Proof.Machine

open Config

/-- Pin of a squelched port (R122). -/
def squelchPin (p : PortSettings) : PinLevel := p.level

/-- What the PTU reads of the other blocks when it does its boundary work (R129). -/
structure WorkView where
  bnd : Boundary
  values : HouValues
  loop : LoopState
  selected : Option Ref
  start : Bool
  deriving DecidableEq, Repr

/-- A port's state by the first line of R130 that applies. -/
def evalState (v : WorkView) (p : PortSettings) : PortState :=
  if p.mode = .off then .off
  else if v.bnd.warmUp ∧ v.start = false then .squelched
  else match p.policy with
    | .runAlways => .running
    | .onBudget => if p.limit < v.values.u then .squelched else .running
    | .unlocked => if v.loop = .freeRun ∨ v.loop = .holdover then .squelched else .running

/-- Step 1 of R129: staged settings become the active ones. -/
def applyStaged (e : PortEntry) : PortEntry :=
  match e.staged with
  | none => e
  | some g => { e with active := g.settings, staged := none }

/-- The completion of a staging as it is applied (R133). -/
def completeStaging (staged : Option Staged) (label : Label) (s : State) : State :=
  match staged with
  | some ⟨_, .request slot, clamped⟩ =>
    complete slot (if clamped then .adjusted else .ok) label [] s
  | _ => s

/-- Periods, edges and message cancelled, the pin at a level (R123). -/
def cancelPeriods (level : PinLevel) (e : PortEntry) : PortEntry :=
  { e with armed := [], progress := none, pin := level }

/-- Step 2 of R129: the pin takes a changed state at once (R123); a port that stays SQUELCHED stands
at the squelch level of its active settings (R122, log entry 26). -/
def takeState (n : PortState) (e : PortEntry) : PortEntry :=
  let changed := n != e.state
  let e' := { e with state := n }
  match n with
  | .off => if changed then cancelPeriods .highZ e' else e'
  | .squelched =>
    if changed then cancelPeriods (squelchPin e.active) e'
    else { e' with pin := squelchPin e.active }
  | .running => if changed then { e' with pin := idleLevel e.active.polarity } else e'

/-- The message of a plan fixed when the plan is of second N and in TIMECODE mode (R135). -/
def fixPlan (v : WorkView) (p : Plan) : Plan :=
  if p.second = v.bnd.second ∧ p.settings.mode = .timecode then
    { p with message := some (siteMessage v.bnd v.values v.selected) }
  else p

/-- Step 3 of R129. -/
def fixMessages (v : WorkView) (e : PortEntry) : PortEntry :=
  { e with
    armed := e.armed.map (fixPlan v)
    progress := e.progress.map fun pr => { pr with plan := fixPlan v pr.plan } }

/-- Step 4 of R129: a RUNNING port arms the period of second N + 1 (R124). -/
def armPeriod (v : WorkView) (e : PortEntry) : PortEntry :=
  if e.state = .running then
    { e with armed := e.armed ++ [⟨e.active, v.bnd.second + 1, none⟩] }
  else e

/-- A port entry through the four steps of R129. -/
def workEntry (v : WorkView) (e : PortEntry) : PortEntry :=
  let e := applyStaged e
  armPeriod v (fixMessages v (takeState (evalState v e.active) e))

/-- One port's boundary work: its entry, the completion of its staging, the notice to a measurement
whose port leaves RUNNING (R123, R129, R133). -/
def workPort (v : WorkView) (s : State) (p : Port) : State :=
  let e := s.ptu.ports[p]
  let s := completeStaging e.staged v.bnd.label (s.updPort p (workEntry v))
  if e.state = .running ∧ s.ptu.ports[p].state ≠ .running then notifyMeas p .leftRunning s else s

/-- The twelve port states (R129). -/
def portStates (t : Ptu) : Vector PortState 12 := t.ports.map (·.state)

/-- Presence of PORT-SQUELCHED (R131). -/
def anySquelched (t : Ptu) : Bool := (List.finRange 12).any fun p => t.ports[p].state == .squelched

/-- PORT-SQUELCHED settled (R131). -/
def settleSquelched (s : State) : State :=
  handIfChanged codeSquelched s.ptu.squelched (anySquelched s.ptu)
    (s.setPtu { s.ptu with squelched := anySquelched s.ptu })

/-- How many ports changed state (R131). -/
def countChanged (a b : Vector PortState 12) : Nat :=
  ((List.finRange 12).filter fun p => a[p] != b[p]).length

/-- PORT bumped `n` times (R131). -/
def bumpPorts : Nat → State → State
  | 0, s => s
  | n + 1, s => bumpPorts n (bump clsPort s)

/-- What the PTU reads as it does the work for boundary `b` (R129). -/
def viewOf (b : Boundary) (v : HouValues) (s : State) : WorkView :=
  ⟨b, v, s.lpu.state, s.qsu.selected, s.tsu.startStrap⟩

/-- The boundary work over the twelve ports, then the settling, the bumps and the states for the XU
(R129, R131). -/
def boundaryWork (v : WorkView) (s : State) : State :=
  let before := portStates s.ptu
  let s := (List.finRange 12).foldl (workPort v) s
  let s := settleSquelched s
  let s := bumpPorts (countChanged before (portStates s.ptu)) s
  s.setWires { s.wires with xuPorts := s.wires.xuPorts ++ [portStates s.ptu] }

/-- PTU_BOUNDARY_WORK: done once both the boundary and the HOU's boundary values are held (R129). -/
def takeBoundaryWork (s : State) : State :=
  match s.wires.ptuBnd, s.wires.ptuValues with
  | b :: bs, v :: vs =>
    boundaryWork (viewOf b v s) (s.setWires { s.wires with ptuBnd := bs, ptuValues := vs })
  | _, _ => s

/-! ### CONFIGURE-PORT (R132) -/

/-- The request of an earlier staging superseded (R132). -/
def supersedeStaging (staged : Option Staged) (s : State) : State :=
  match staged with
  | some ⟨_, .request slot, _⟩ => completeNow slot .superseded s
  | _ => s

/-- CONFIGURE-PORT (R132). -/
def takeConfigurePort (n : Slot) (p : Params) (s : State) : State :=
  match asIndex 12 (p.w 0) with
  | none => completeNow n .invalid s
  | some port =>
    match portSettingsOf p with
    | none => completeNow n .invalid s
    | some (settings, clamped) =>
      if s.ptu.ports[port].measuring.isSome then completeNow n .busy s
      else
        (supersedeStaging s.ptu.ports[port].staged s).updPort port fun e =>
          { e with staged := some ⟨settings, .request n, clamped⟩ }

/-! ### Meanings -/

def execPtuBoundaryWork (s : State) : Host.Outcome State Fault Refusal :=
  .next (takeBoundaryWork s)

def execConfigurePort (s : State) : Host.Outcome State Fault Refusal :=
  .next (takeRequest 12 takeConfigurePort s)

end Sys2Proof.Machine
end

