-- ==== Sys2Proof/Machine/DelayMeas.lean ====
section
/-! DEFINITION. Cable delay measurement (08_cable_delay_measurement.md): the start of a measurement,
its return windows, its samples and its endings. -/

namespace Sys2Proof.Machine

open Config

/-! ### Starting (R140, R141) -/

/-- Is this AUX channel claimed: a record exists for it (R139, R141)? -/
def auxClaimed (t : Ptu) (a : AuxId) : Bool := t.meas[a].isSome

/-- The channel a choice finds free (R140 order 4, R141). -/
def freeAux (t : Ptu) : AuxChoice → Option AuxId
  | .one a => if auxClaimed t a then none else some a
  | .any => if auxClaimed t 0 then (if auxClaimed t 1 then none else some 1) else some 0

/-- May this port be measured: RUNNING, in PULSE or TIMECODE (R140 order 2)? -/
def measurable (e : PortEntry) : Bool :=
  e.state == .running && (e.active.mode == .pulse || e.active.mode == .timecode)

/-- A fresh measurement record (R140). -/
def newMeas (m : MeasureParams) (n : Slot) : DelayMeas where
  port := m.port
  farEnd := m.farEnd
  apply := m.apply
  slot := n
  k := 0
  window := none
  samples := Vector.replicate 8 .notTaken
  notices := []

/-- A channel claimed: the record made and the port's flag set (R141). -/
def claimAux (a : AuxId) (m : MeasureParams) (n : Slot) (s : State) : State :=
  (s.setMeas a (some (newMeas m n))).updPort m.port fun e => { e with measuring := some a }

/-- MEASURE-PORT-DELAY: the checks of R140 in their order, then the claim. -/
def takeMeasure (n : Slot) (p : Params) (s : State) : State :=
  match measureParamsOf p with
  | none => completeNow n .invalid s
  | some m =>
    let e := s.ptu.ports[m.port]
    if !measurable e then completeNow n .notPermitted s
    else if e.measuring.isSome || e.staged.isSome then completeNow n .busy s
    else match freeAux s.ptu m.choice with
      | none => completeNow n .busy s
      | some a => claimAux a m n s

/-! ### Figures and result words (R144, R146, R185) -/

/-- The present samples. -/
def presentSamples (m : DelayMeas) : List Int :=
  m.samples.toList.filterMap fun r => match r with
    | .value v => some v
    | _ => none

/-- Number of missing samples. -/
def missingCount (m : DelayMeas) : Nat := (m.samples.toList.filter (· == .missing)).length

/-- A word with bit k − 1 set where the predicate holds of R_k. -/
def sampleMask (f : RoundTrip → Bool) (m : DelayMeas) : Nat :=
  ((List.finRange 8).map fun k => if f m.samples[k] then 2 ^ k.val else 0).sum

/-- Missing mask in bits 7:0 and taken mask in bits 15:8 (R185, R187). -/
def maskWord (m : DelayMeas) : Nat :=
  sampleMask (· == .missing) m + 256 * sampleMask (· != .notTaken) m

/-- The smallest and the largest of the present samples, where there is one. -/
def extremes : List Int → Option (Int × Int)
  | [] => none
  | x :: xs => some (xs.foldl min x, xs.foldl max x)

/-- What an OK measurement computes (R144): mean round trip and one-way delay. -/
structure DelayFigures where
  mean : Int
  oneWay : Int
  deriving DecidableEq, Repr

def delayFigures (present : List Int) : DelayFigures :=
  let mean := roundDiv present.sum present.length
  ⟨mean, mean / 2⟩

/-- The compensation an OK measurement stages and whether it was clamped (R145). -/
def stagedComp (m : DelayMeas) (f : DelayFigures) : Int × Bool :=
  let c := f.oneWay + m.farEnd
  (clampAbs c compensationBound, clampAbs c compensationBound != c)

/-- Outcome of a result: the first line of R144 that applies. -/
def measOutcome (m : DelayMeas) : Completion :=
  if 3 ≤ missingCount m then .noReturn
  else match extremes (presentSamples m) with
    | none => .ok
    | some (lo, hi) => if (spreadBound : Int) < hi - lo then .unstable else .ok

/-- The sixteen result words of R185. `outcome` is 0 for an interruption; `figures` are present for
an OK outcome, `staged` with the apply flag as well. -/
def resultWords (outcome : Word) (m : DelayMeas) (figures : Option DelayFigures)
    (staged : Option (Int × Bool)) : List Word :=
  let present := presentSamples m
  let ext := extremes present
  let lo := (ext.map (·.1)).getD 0
  let hi := (ext.map (·.2)).getD 0
  let flags := bitOf ext.isSome + 2 * bitOf figures.isSome + 4 * bitOf staged.isSome
    + 8 * bitOf (staged.any (·.2))
  [outcome] ++ encNat1 present.length ++ encNat1 (maskWord m)
    ++ encPs2 lo ++ encPs2 hi ++ encPs2 (hi - lo)
    ++ encPs2 ((figures.map (·.mean)).getD 0) ++ encPs2 ((figures.map (·.oneWay)).getD 0)
    ++ encPs2 ((staged.map (·.1)).getD 0) ++ encNat1 flags

/-! ### Endings (R144 to R147) -/

/-- The channel released, the port's flag cleared, the record gone (R141, R146). -/
def releaseAux (a : AuxId) (port : Port) (s : State) : State :=
  (s.setMeas a none).updPort port fun e => { e with measuring := none }

/-- DELAY-MEASURE-FAILED settled at a result (R147). -/
def settleDelayFailed (present : Bool) (s : State) : State :=
  handIfChanged codeDelayFailed s.ptu.delayFailed present
    (s.setPtu { s.ptu with delayFailed := present })

/-- The compensation of an OK measurement staged on its port (R145). -/
def stageComp (port : Port) (staged : Option (Int × Bool)) (s : State) : State :=
  match staged with
  | none => s
  | some (c, _) => s.updPort port fun e =>
      { e with staged := some ⟨{ e.active with compensation := c }, .measurement, false⟩ }

/-- A measurement ends with a result (R144 to R147). -/
def endResult (a : AuxId) (m : DelayMeas) (s : State) : State :=
  let out := measOutcome m
  let figures := if out = .ok then some (delayFigures (presentSamples m)) else none
  let staged := if m.apply then figures.map (stagedComp m) else none
  let s := stageComp m.port staged s
  let s := releaseAux a m.port s
  let s := settleDelayFailed (out != .ok) s
  let code := if staged.any (·.2) then .adjusted else out
  bump clsPort
    (complete m.slot code s.tsu.label (resultWords out.code m figures staged) s)

/-- A measurement is interrupted (R146). -/
def endInterrupted (a : AuxId) (m : DelayMeas) (s : State) : State :=
  let s := releaseAux a m.port s
  bump clsPort (complete m.slot .interrupted s.tsu.label (resultWords 0 m none none) s)

/-- Sample R_k of the window numbered k decided, the window closed; the eighth ends the measurement
(R142 to R144). -/
def decideSample (a : AuxId) (r : RoundTrip) (m : DelayMeas) (s : State) : State :=
  let m := { m with
    window := none
    samples := Vector.ofFn fun i : Fin 8 => if i.val + 1 = m.k then r else m.samples[i] }
  if 8 ≤ m.k then endResult a m s else s.setMeas a (some m)

/-! ### Windows (R142, R143) -/

/-- Picoseconds of timescale running since the point `ps` of the second with this ordinal, through at
most one boundary and its step (R142, R143): in the second after it, the hold so far, or the fraction
less the step. -/
def runSince (t : Tsu) (second ps : Nat) : Int :=
  let now : Int := match t.due with
    | some extra => (psPerSecond : Int) + extra
    | none => t.frac
  if second = t.second then now - ps
  else
    ((t.second : Int) - second) * psPerSecond - ps + match t.hold with
      | some h => (h.run : Int)
      | none => now - t.secondStep

/-- A period notice taken: the window number rises; the window opens, or the sample is missing
(R142). The window ends 100,000,000 ps of timescale running after E_k, so its timer is armed with what
the moment at which the notice is taken leaves of them (log entry 47). -/
def takeNotice (a : AuxId) (lead : Option (Instant × Nat)) (m : DelayMeas) (s : State) : State :=
  let m := { m with k := m.k + 1 }
  match lead with
  | some (start, second) =>
    s.setMeas a (some { m with
      window := some ⟨start, second, returnWindow - runSince s.tsu second start.ps⟩ })
  | none => decideSample a .missing m s

/-- PERIOD_NOTICE: the oldest notice of the measurement on channel `a`, once no window is open
(R142). -/
def takePeriodNotice (a : AuxId) (s : State) : State :=
  match s.ptu.meas[a] with
  | none => s
  | some m =>
    match m.notices, m.window with
    | .period lead :: rest, none => takeNotice a lead { m with notices := rest } s
    | _, _ => s

/-- The sample a return gives: missing for a held stamp, else C − E − s, with C − E the difference that
R3 gives of the two instants (R143). Where a boundary between E and C repeats, drops or sets the label,
that difference is off the round trip by the seconds so moved, and is not put right (DEDUCED, log entry
55). -/
def returnSample (t : Tsu) (w : ReturnWindow) (c : Reading) : RoundTrip :=
  if c.held then .missing
  else .value (instDiff c.at_ w.start - (if w.second < t.second then t.secondStep else 0))

/-- AUX_LEADING_EDGE: ignored on an unclaimed channel (R37); discarded with no window open, and past
the end of a window whose expiry has still to be taken (R142, log entry 47); otherwise it decides the
window's sample (R143). -/
def takeAuxEdge (a : AuxId) (s : State) : State :=
  match s.ptu.meas[a] with
  | none => s
  | some m =>
    match m.window with
    | none => s
    | some w =>
      if w.timer < 0 then s else decideSample a (returnSample s.tsu w (stampFor s.tsu [])) m s

/-- WINDOW_TIMER_EXPIRY (R142). -/
def takeWindowExpiry (a : AuxId) (s : State) : State :=
  match s.ptu.meas[a] with
  | none => s
  | some m =>
    match m.window with
    | some w => if w.timer ≤ 0 then decideSample a .missing m s else s
    | none => s

/-- MEASUREMENT_INTERRUPTED: the notice that the port left RUNNING (R146). -/
def takeInterrupted (a : AuxId) (s : State) : State :=
  match s.ptu.meas[a] with
  | none => s
  | some m =>
    match m.notices with
    | .leftRunning :: _ => endInterrupted a m s
    | _ => s

/-! ### Meanings -/

def execAuxLeadingEdge (a : AuxId) (s : State) : Host.Outcome State Fault Refusal :=
  .next (takeAuxEdge a s)

def execPeriodNotice (a : AuxId) (s : State) : Host.Outcome State Fault Refusal :=
  .next (takePeriodNotice a s)

def execWindowTimerExpiry (a : AuxId) (s : State) : Host.Outcome State Fault Refusal :=
  .next (takeWindowExpiry a s)

def execMeasurementInterrupted (a : AuxId) (s : State) : Host.Outcome State Fault Refusal :=
  .next (takeInterrupted a s)

def execMeasurePortDelay (s : State) : Host.Outcome State Fault Refusal :=
  .next (takeRequest 13 takeMeasure s)

end Sys2Proof.Machine
end

