-- ==== Sys2Proof/Machine/Alarm.lean ====
section
/-! DEFINITION. The alarm unit (09_alarms.md): persistence, changes of state, pins, acknowledgement
and CONFIGURE-ALARM. -/

namespace Sys2Proof.Machine

open Config

/-- An alarm entry replaced by its image. -/
def State.updAlarm (s : State) (c : AlarmCode) (f : AlarmEntry → AlarmEntry) : State :=
  s.setAlu { s.alu with entries := updAt s.alu.entries c f }

/-- The label of the ALU's present second: the second that the first boundary it has still to take
will end, or the current one (log entry 28). -/
def aluLabel (s : State) : Label := (readingFor s.tsu s.wires.aluBnd).at_.label

/-! ### Changes of state (R154) -/

/-- Is a change to this state a raise (R154 step 2)? -/
def isRaise (before after : AlarmState) : Bool :=
  after == .raised && (before == .clear || before == .raising)

/-- Steps 1 to 4 of R154 on the entry. The persistence count is 0 in the state entered (R151 to R153,
log entry 39). -/
def enterAlarm (after : AlarmState) (label : Label) (e : AlarmEntry) : AlarmEntry :=
  { e with
    state := after
    count := 0
    raises := if isRaise e.state after then satSucc e.raises count16Max else e.raises
    acked := if after = .clear then false else e.acked
    stamp := e.stamp + 1
    lastChange := some label }

/-- A change of an entry's state: the entry, the pins settled, ALARM bumped where the mask is clear
(R154). -/
def changeAlarm (c : AlarmCode) (after : AlarmState) (label : Label) (s : State) : State :=
  let s := s.updAlarm c (enterAlarm after label)
  let s := s.setAlu (settlePins s.alu)
  if s.alu.entries[c].mask then s else bump clsAlarm s

/-! ### Conditions (R150 to R153) -/

/-- The state a change of presence takes an entry to, if any (R151 to R153). -/
def stateByCondition (e : AlarmEntry) (present : Bool) : Option AlarmState :=
  match e.state, present with
  | .clear, true => some (if e.raiseDelay = 0 then .raised else .raising)
  | .raising, false => some .clear
  | .raised, false => some (if e.clearDelay = 0 then .clear else .clearing)
  | .clearing, true => some .raised
  | _, _ => none

/-- Has the entry's count reached its delay, so that its expiry comes next (R152, R153, log
entry 8)? -/
def raiseDue (e : AlarmEntry) : Bool := e.state == .raising && decide (e.raiseDelay ≤ e.count)
def clearDue (e : AlarmEntry) : Bool := e.state == .clearing && decide (e.clearDelay ≤ e.count)
def expiryDue (e : AlarmEntry) : Bool := raiseDue e || clearDue e

/-- A condition change taken (R150). The change carries the current label, also where the alarm unit
has a boundary still to take (log entry 51). -/
def acceptCondition (c : AlarmCode) (present : Bool) (s : State) : State :=
  if s.alu.entries[c].condition = present then s
  else
    let s := s.updAlarm c fun e => { e with condition := present }
    match stateByCondition s.alu.entries[c] present with
    | none => s
    | some st => changeAlarm c st s.tsu.label s

/-- CONDITION_CHANGE: the oldest waiting change of this code. -/
def takeCondition (c : AlarmCode) (s : State) : State :=
  if expiryDue s.alu.entries[c] then s
  else match takeFirst (fun x : CondChange => x.code == c) s.wires.conds with
    | none => s
    | some (x, rest) => acceptCondition c x.present (s.setWires { s.wires with conds := rest })

/-- The persistence count at a boundary (R152, R153). -/
def countAlarm (e : AlarmEntry) : AlarmEntry :=
  if e.state = .raising ∨ e.state = .clearing then { e with count := satSucc e.count 255 } else e

/-- Is an expiry of any entry due? -/
def anyExpiryDue (a : Alu) : Bool := (List.finRange 19).any fun c => expiryDue a.entries[c]

/-- ALU_BOUNDARY (R150). -/
def takeAluBoundary (s : State) : State :=
  if anyExpiryDue s.alu then s
  else match s.wires.aluBnd with
    | [] => s
    | _ :: rest =>
      (s.setWires { s.wires with aluBnd := rest }).setAlu
        { s.alu with entries := s.alu.entries.map countAlarm }

/-- RAISE_DELAY_EXPIRY (R152). -/
def takeRaiseExpiry (c : AlarmCode) (s : State) : State :=
  if raiseDue s.alu.entries[c] then changeAlarm c .raised (aluLabel s) s else s

/-- CLEAR_DELAY_EXPIRY (R153). -/
def takeClearExpiry (c : AlarmCode) (s : State) : State :=
  if clearDue s.alu.entries[c] then changeAlarm c .clear (aluLabel s) s else s

/-! ### Acknowledgement (R157) -/

/-- An ack word written: stored, and the flag set where the value is the stamp of a RAISED or CLEARING
entry. -/
def ackAlarm (v : Word) (e : AlarmEntry) : AlarmEntry :=
  { e with
    ackWord := v
    acked := e.acked || (v == e.stamp && (e.state == .raised || e.state == .clearing)) }

/-! ### CONFIGURE-ALARM (R159) -/

/-- An entry with its new configuration. -/
def configureEntry (m : AlarmParams) (e : AlarmEntry) : AlarmEntry :=
  { e with
    severity := m.severity, mask := m.mask, raiseDelay := m.raiseDelay, clearDelay := m.clearDelay }

/-- The configuration replaced, the pins settled, and a wait that the new delay ends ended, with the
current label (R159, log entry 51). -/
def applyAlarmConfig (m : AlarmParams) (s : State) : State :=
  let s := s.updAlarm m.code (configureEntry m)
  let s := s.setAlu (settlePins s.alu)
  if raiseDue s.alu.entries[m.code] then changeAlarm m.code .raised s.tsu.label s
  else if clearDue s.alu.entries[m.code] then changeAlarm m.code .clear s.tsu.label s
  else s

def takeConfigureAlarm (n : Slot) (p : Params) (s : State) : State :=
  match alarmParamsOf p with
  | none => completeNow n .invalid s
  | some m => completeNow n .ok (applyAlarmConfig m s)

/-- Does the held CONFIGURE-ALARM name an entry whose expiry is due, which is taken first? -/
def configAlarmWaits (s : State) : Bool :=
  match heldSlot 14 s with
  | none => false
  | some n => match alarmParamsOf s.xu.slots[n].params with
    | none => false
    | some m => expiryDue s.alu.entries[m.code]

/-! ### Meanings -/

def execConditionChange (c : AlarmCode) (s : State) : Host.Outcome State Fault Refusal :=
  .next (takeCondition c s)

def execAluBoundary (s : State) : Host.Outcome State Fault Refusal := .next (takeAluBoundary s)

def execRaiseDelayExpiry (c : AlarmCode) (s : State) : Host.Outcome State Fault Refusal :=
  .next (takeRaiseExpiry c s)

def execClearDelayExpiry (c : AlarmCode) (s : State) : Host.Outcome State Fault Refusal :=
  .next (takeClearExpiry c s)

def execConfigureAlarm (s : State) : Host.Outcome State Fault Refusal :=
  .next (if configAlarmWaits s then s else takeRequest 14 takeConfigureAlarm s)

end Sys2Proof.Machine
end

