-- ==== Sys2Proof/Machine/Records.lean ====
section
/-! DEFINITION. The host's view of the state: the words of every record, slot and register of the
window (11_layouts_and_formats.md), each computed from the state it shows. -/

namespace Sys2Proof.Machine

open Config

/-! ### Codes (R182) -/

def LoopState.num : LoopState → Nat
  | .freeRun => 0
  | .acquire => 1
  | .track => 2
  | .assisted => 3
  | .holdover => 4

def RefState.num : RefState → Nat
  | .disabled => 0
  | .qualifying => 1
  | .qualified => 2
  | .faulted => 3

def Cause.num : Cause → Nat
  | .missing => 1
  | .spurious => 2
  | .width => 3
  | .range => 4
  | .delay => 5
  | .tolerancePhase => 6
  | .toleranceFreq => 7
  | .jump => 8
  | .declared => 9
  | .loss => 10

/-- A fault cause or judged outcome, 0 for absent and for clean. -/
def causeNum (c : Option Cause) : Nat := (c.map Cause.num).getD 0

def RawOutcome.num : RawOutcome → Nat
  | .clean => 1
  | .spurious => 2
  | .width => 3
  | .missing => 4
  | .range => 5
  | .delay => 6

def DividerState.num : DividerState → Nat
  | .idle => 0
  | .loading => 1
  | .counting => 2

def StepPolicy.num : StepPolicy → Nat
  | .never => 0
  | .firstLock => 1
  | .always => 2

def PortMode.num : PortMode → Nat
  | .off => 0
  | .pulse => 1
  | .frequency => 2
  | .timecode => 3

def PortState.num : PortState → Nat
  | .off => 0
  | .squelched => 1
  | .running => 2

def Polarity.num : Polarity → Nat
  | .normal => 0
  | .inverted => 1

def SquelchPolicy.num : SquelchPolicy → Nat
  | .runAlways => 0
  | .onBudget => 1
  | .unlocked => 2

def PinLevel.num : PinLevel → Nat
  | .low => 0
  | .high => 1
  | .highZ => 2

/-- Baud code of a rate. -/
def baudNum (n : Nat) : Nat :=
  if n = 19200 then 1 else if n = 38400 then 2 else if n = 115200 then 3 else 0

def Verdict.num : Verdict → Nat
  | .none_ => 0
  | .accepted => 1
  | .badRef => 2
  | .badField => 3
  | .order => 4
  | .range => 5
  | .negative => 6
  | .stale => 7
  | .future => 8
  | .duplicate => 9

def SampleState.num : SampleState → Nat
  | .empty => 0
  | .ready => 1

def SlotState.num : SlotState → Nat
  | .free => 0
  | .posted => 1
  | .taken => 2
  | .done => 3

def AlarmState.num : AlarmState → Nat
  | .clear => 0
  | .raising => 1
  | .raised => 2
  | .clearing => 3

def Severity.num : Severity → Nat
  | .critical => 0
  | .major => 1
  | .minor => 2
  | .warning => 3

def Route.num : Route → Nat
  | .none_ => 0
  | .inta => 1
  | .intb => 2

/-! ### Words and layouts -/

/-- A word of bit groups, each with its lowest bit. -/
def fields (gs : List (Nat × Nat)) : Word := BitVec.ofNat 16 ((gs.map fun g => g.2 * 2 ^ g.1).sum)

/-- A reference index that may be none (R181). -/
def refWord (r : Option Ref) : Word :=
  match r with
  | none => 0xFFFF
  | some r => BitVec.ofNat 16 r.val

/-- A field that may be absent: zeros of its width while it is (R181). -/
def present {α : Type} (width : Nat) (enc : α → List Word) (x : Option α) : List Word :=
  match x with
  | none => List.replicate width 0
  | some v => enc v

/-- A record of `len` words from its fields by offset; words no field covers read 0 (R181). -/
def layout (len : Nat) (parts : List (Nat × List Word)) : List Word :=
  (List.range len).map fun i =>
    match parts.find? fun p => p.1 ≤ i && i < p.1 + p.2.length with
    | some p => p.2.getD (i - p.1) 0
    | none => 0

/-! ### Reference status (R187) -/

/-- Chain, divider state, interval and span of a reference's divider, where it has one (R36). -/
def dividerOf (r : Ref) (s : State) : Option Divider :=
  if h : 2 ≤ r.val ∧ r.val < 6 then some s.cap.div[r.val - 2] else none

/-- The PPS channel of a reference, where it has one. -/
def ppsOf (r : Ref) (s : State) : Option PpsChannel :=
  if h : r.val < 2 then some s.cap.pps[r.val] else none

/-- The packet reference of a reference, where it is one. -/
def packetRefOf (r : Ref) (s : State) : Option PacketRef :=
  if h : 6 ≤ r.val then some s.pku.refs[r.val - 6] else none

/-- LINE-x-OK of a LINE reference as the capture detail shows it (R36). -/
def lineLevelOf (r : Ref) (s : State) : Bool :=
  if h : 4 ≤ r.val ∧ r.val < 6 then s.cap.lineOk[r.val - 4] else false

/-- The step mark shown beside a packet reference (R50). -/
def markOf (r : Ref) (s : State) : Option Label :=
  if refKind r = .pkt then s.pku.stepMark else none

/-- e of the last measurement; for a divider, the interval of its capture detail (R187, log
entry 17). -/
def shownPhase (r : Ref) (s : State) : Option Int :=
  match dividerOf r s with
  | some d => d.detailInterval
  | none => s.qsu.refs[r].last.bind (·.e)

/-- The state count of word 3 (R187). -/
def stateCount (e : RefEntry) : Nat :=
  match e.state with
  | .qualifying | .qualified => e.qualifyCount
  | .faulted => e.dwellCount
  | .disabled => 0

def refCodes (e : RefEntry) : Word :=
  fields [(0, e.state.num), (2, causeNum e.cause), (6, (e.last.map (·.raw.num)).getD 0),
    (9, (e.last.map fun m => causeNum m.judged).getD 0)]

def refFlags (r : Ref) (s : State) : Word :=
  let e := s.qsu.refs[r]
  let d := dividerOf r s
  fields [(0, bitOf e.cfg.enabled), (1, bitOf e.declaredValid), (2, bitOf (lineLevelOf r s)),
    (3, bitOf e.last.isSome), (4, bitOf (e.last.any (·.repeated))),
    (5, bitOf (e.last.any (·.newChain))), (6, bitOf (d.any fun v => v.chain.isSome)),
    (7, bitOf (shownPhase r s).isSome), (8, bitOf ((e.last.bind (·.delta)).isSome)),
    (9, bitOf (markOf r s).isSome), (10, (d.map (·.state.num)).getD 0),
    (12, ((ppsOf r s).map (·.detailEdges)).getD 0)]

/-- The kind part of a reference status record, from word 16 (R187). -/
def refKindPart (r : Ref) (s : State) : List (Nat × List Word) :=
  let c := s.qsu.refs[r].cfg
  match refKind r with
  | .pps =>
    [(16, encPs2 c.compensation), (18, encNat2 c.accuracy), (20, encNat3 c.phaseTol),
     (23, encNat3 c.wMin), (26, encNat3 c.wMax),
     (29, present 3 encPs3 ((ppsOf r s).bind (·.detailWidth)))]
  | .frq | .line => [(16, encNat2 c.nominal), (18, encNat2 c.gross)]
  | .pkt =>
    let p := packetRefOf r s
    let fill := (p.map (·.window.length)).getD 0
    let inSpan := (p.map (·.lastInSpan)).getD 0
    [(16, encPs2 c.compensation), (18, encNat2 c.accuracy), (20, encNat3 c.phaseTol),
     (23, encNat3 c.delayLimit), (26, [fields [(0, c.span), (5, fill), (10, inSpan)]]),
     (27, encNat1 ((p.map (·.lastAccepted)).getD 0)),
     (28, encNat1 ((p.map (·.lastRejected)).getD 0)),
     (29, present 3 labelWords (markOf r s))]

/-- The reference status record (R187). The span it shows is that of the capture detail, not that of
the last measurement (log entry 53). -/
def refRecord (r : Ref) (s : State) : List Word :=
  let e := s.qsu.refs[r]
  let span := ((dividerOf r s).bind (·.detailSpan)).getD 0
  layout 32
    ([(0, [refCodes e]), (1, [refFlags r s]),
      (2, [fields [(0, e.cfg.priority), (4, e.cfg.badLimit), (8, e.badCount), (13, span)]]),
      (3, encNat1 (stateCount e)), (4, encNat1 e.cfg.qualifyTime), (5, encNat1 e.cfg.dwell),
      (6, encNat2 e.cfg.freqTol), (8, present 3 labelWords (e.last.map (·.label))),
      (11, present 3 encPs3 (shownPhase r s)),
      (14, present 2 encPpt (e.last.bind (·.delta)))]
     ++ refKindPart r s)

/-! ### Loop status (R187) -/

/-- The flags word, its flags in the order R187 names them, from bit 0 (log entry 16). -/
def loopFlags (s : State) : Word :=
  let l := s.lpu
  fields [(0, bitOf (stepPermitted l)), (1, bitOf l.firstLockSpent), (2, bitOf l.stepPending),
    (3, bitOf l.pseudo.isSome), (4, bitOf l.lastE.isSome), (5, bitOf l.lastX.isSome),
    (6, bitOf l.lastP.isSome), (7, bitOf l.freqLimit), (8, bitOf l.noReference),
    (9, bitOf l.freeRunning), (10, bitOf s.hou.budget), (11, bitOf s.hou.notReady),
    (12, bitOf s.hou.dLearn.isSome)]

/-- The LPU's and the QSU's words of the record (R100). -/
def loopPart (s : State) : List (Nat × List Word) :=
  let l := s.lpu
  let c := l.cfg
  [(0, [fields [(0, l.state.num), (3, bitOf s.qsu.revertive), (4, bitOf s.qsu.forcedHoldover),
      (5, bitOf l.warmHold), (8, s.hou.quality)]]),
   (1, [refWord s.qsu.selected]), (2, [refWord s.qsu.forced]), (3, [loopFlags s]),
   (4, encPpt s.tsu.freq), (6, encPpt l.integral), (8, present 3 encPs3 l.lastE),
   (11, present 3 encPs3 l.lastX), (14, present 2 encPpt l.lastP),
   (16, [fields [(0, l.lockCount), (8, l.unlockCount)]]), (17, encNat1 l.outliers),
   (18, present 3 encPs3 l.pseudo), (21, encNat1 c.acqP), (22, encNat1 c.acqI),
   (23, encNat1 c.trackP), (24, encNat1 c.trackI), (25, encNat3 c.stepThreshold),
   (28, encNat3 c.unlockThreshold), (31, encNat3 c.lockThreshold), (34, encNat1 c.lockLimit),
   (35, encNat1 c.unlockLimit), (36, encNat2 c.fLimit), (38, encNat1 c.policy.num)]

/-- The HOU's words of the record (R118). -/
def holdPart (h : Hou) : List (Nat × List Word) :=
  let c := h.cfg
  [(40, h.levels.toList.flatMap encPpt), (56, encNat1 h.fill), (57, encPs3 h.sum),
   (60, encNat1 h.count), (61, encNat1 h.position), (62, present 2 encPpt h.dLearn),
   (64, encPpt (currentAging h)), (66, encPpt h.fBase), (68, encPpt h.dHold),
   (70, encNat2 h.clock), (72, encNat3 h.uEntry), (75, encNat3 h.u), (80, encNat1 c.interval),
   (81, encNat1 c.guards), (82, encNat1 (bitOf c.fixedAging)), (83, encPpt c.dCfg),
   (85, encNat2 c.dMax), (87, encNat2 c.yHold), (89, encNat2 c.aging), (91, encNat2 c.yAssist),
   (93, encNat3 c.uAlarm), (96, encNat1 c.ready)]

/-- The loop status record (R187), live: a read between a HOU_BOUNDARY that ends an interval and
its INTERVAL_END shows the position at 0, and the accumulator, the levels, the fill and D_learn from before
the push (DESIGN CHOICE, log entry 54). -/
def loopRecord (s : State) : List Word := layout 128 (loopPart s ++ holdPart s.hou)

/-! ### Port status (R187) -/

/-- A settings block of ten words (R187). -/
def settingsBlock (p : PortSettings) : List Word :=
  [fields [(0, p.mode.num), (2, p.polarity.num), (3, p.policy.num), (5, p.level.num),
    (7, baudNum p.baud)]]
  ++ encPs2 p.compensation ++ encNat2 p.width ++ encNat2 p.freq ++ encNat3 p.limit

def auxNum (a : Option AuxId) : Nat := (a.map (·.val + 1)).getD 0

def originNum (g : Option Staged) : Nat :=
  match g with
  | none => 0
  | some g => match g.origin with
    | .request _ => 1
    | .measurement => 2

/-- The measurement record of the measurement in flight on a port (R139). -/
def measOf (e : PortEntry) (s : State) : Option DelayMeas := e.measuring.bind fun a => s.ptu.meas[a]

/-- A port status record (R187), live: words 0, 11 to 20 and 21 show the staging and the measurement as
the PTU holds them, also after an exchange reset has cleared both (R134, R146; DEDUCED, log entry
56). -/
def portRecord (p : Port) (s : State) : List Word :=
  let e := s.ptu.ports[p]
  let m := measOf e s
  layout 32
    [(0, [fields [(0, e.state.num), (2, originNum e.staged), (4, bitOf e.measuring.isSome),
        (5, auxNum e.measuring), (7, bitOf (e.staged.any (·.clamped))),
        (8, (m.map (·.k)).getD 0), (12, bitOf e.lastEdge.isSome),
        (13, bitOf e.lastMessage.isSome)]]),
     (1, settingsBlock e.active),
     (11, present 10 (fun g : Staged => settingsBlock g.settings) e.staged),
     (21, encNat1 ((m.map maskWord).getD 0)),
     (22, present 6 encInstant e.lastEdge), (28, present 3 labelWords e.lastMessage)]

/-! ### Alarm entries (R188) -/

def alarmRecord (e : AlarmEntry) : List Word :=
  layout 16
    [(0, [fields [(0, e.state.num), (2, e.severity.num), (4, bitOf e.mask),
        (5, bitOf e.condition), (6, bitOf e.acked), (7, bitOf e.lastChange.isSome)]]),
     (1, [fields [(0, e.raiseDelay), (8, e.clearDelay)]]), (2, encNat1 e.count),
     (3, encNat1 e.raises), (4, [e.stamp]), (5, present 3 labelWords e.lastChange),
     (8, [e.ackWord])]

/-! ### Epoch report pages (R189) -/

def reportFlags (r : Report) : Word :=
  let b := r.bnd
  fields [(0, bitOf b.repeated), (1, bitOf b.timeSet), (2, bitOf b.leap.isSome),
    (3, bitOf (b.leap == some .delete)), (4, bitOf b.warmUp), (5, bitOf b.step.isSome),
    (6, bitOf (b.step.any fun p => p.2 == .loop)), (8, bitOf r.lastE.isSome)]

def reportWords (r : Report) : List Word :=
  layout 128
    [(0, [r.number]), (1, labelWords r.bnd.label), (4, [reportFlags r]),
     (5, encPs3 (stepOf r.bnd)), (8, [fields [(0, r.loop.num), (8, r.values.quality)]]),
     (9, [refWord r.selected]), (10, encPpt r.freq), (12, encPpt r.integral),
     (14, present 3 encPs3 r.lastE), (17, encNat3 r.values.u), (20, encNat1 r.fill),
     (21, encPpt r.aging),
     (23, r.refs.toList.map fun e => fields [(0, e.1.num), (8, causeNum e.2)]),
     (31, r.ports.toList.map fun p => BitVec.ofNat 16 p.num),
     (43, [fields [(0, bitOf r.critPin), (1, bitOf r.majPin), (2, bitOf r.minPin)]])]

/-- A page reads zero throughout until a report is written to it (R175, R179). -/
def pageRecord (p : Option Report) : List Word := present 128 reportWords p

/-! ### Window readouts (R54, R190) -/

def windowPosition (e : WindowEntry) : List Word :=
  [fields [(0, 1), (1, bitOf e.inSpan), (2, bitOf e.chosen)]]
  ++ labelWords e.label ++ encInstant e.t2 ++ encPs3 e.o ++ encPs3 e.d

def readoutRecord (w : List WindowEntry) : List Word :=
  (List.range 16).flatMap fun i => present 16 windowPosition w[i]?

/-! ### Latchable records (R175, R165) -/

/-- The words of a latchable record as it stands. -/
def recordWords (k : RecordId) (s : State) : List Word :=
  match k with
  | .refStatus r => refRecord r s
  | .loopStatus => loopRecord s
  | .portStatus p => portRecord p s
  | .alarm c => alarmRecord s.alu.entries[c]
  | .page p => pageRecord s.xu.pages[p]
  | .readout k => readoutRecord s.pku.refs[k].window

/-- Length of a record's area in words (R165, R176). -/
def recordLength : RecordId → Nat
  | .refStatus _ => 32
  | .loopStatus => 128
  | .portStatus _ => 32
  | .alarm _ => 16
  | .page _ => 128
  | .readout _ => 256

/-- The latchable record a word address lies in, and the word's place in it (R165). -/
def locate (a : Nat) : Option (RecordId × Nat) :=
  if h : 0x680 ≤ a ∧ a < 0x780 then
    some (.refStatus ⟨(a - 0x680) / 32, by omega⟩, (a - 0x680) % 32)
  else if 0x780 ≤ a ∧ a < 0x800 then some (.loopStatus, a - 0x780)
  else if h : 0x800 ≤ a ∧ a < 0x980 then
    some (.portStatus ⟨(a - 0x800) / 32, by omega⟩, (a - 0x800) % 32)
  else if h : 0x980 ≤ a ∧ a < 0xAB0 then
    some (.alarm ⟨(a - 0x980) / 16, by omega⟩, (a - 0x980) % 16)
  else if h : 0xB00 ≤ a ∧ a < 0xC00 then
    some (.page ⟨(a - 0xB00) / 128, by omega⟩, (a - 0xB00) % 128)
  else if h : 0xC00 ≤ a ∧ a < 0xE00 then
    some (.readout ⟨(a - 0xC00) / 256, by omega⟩, (a - 0xC00) % 256)
  else none

/-! ### Header, slots and registers (R184 to R186, R163) -/

def attentionWords (a : Attention) : List Word :=
  [BitVec.ofNat 16 (bitOf a.pending), a.count, a.ack, BitVec.ofNat 16 a.route.num]

/-- The 128 words of the header (R166, R184). -/
def headerWords (s : State) : List Word :=
  layout 128
    [(0, [0x004E, 0x0001, 8, 12, 16, 32, 19]),
     (8, [fields [(0, s.tsu.warmStrap.toNat), (2, bitOf s.tsu.startStrap)]]),
     (9, encNat1 s.xu.queue.length), (16, s.xu.attn.toList.flatMap attentionWords)]

/-- The 32 words of a request slot (R185). -/
def slotWords (q : RequestSlot) : List Word :=
  layout 32
    [(0, encNat1 q.state.num), (1, [q.kind]), (2, [q.tag]), (3, [q.code]),
     (4, labelWords q.label), (8, q.params.toList)]

/-- The 32 words of a sample slot (R186). -/
def sampleWords (q : Sample) : List Word :=
  layout 32
    [(0, encNat1 q.state.num), (1, [q.ref]), (2, encNat1 q.verdict.num),
     (3, labelWords q.takeLabel), (6, q.words.toList)]

/-- LINE STATUS (R163, R184). -/
def lineStatus (s : State) : Word :=
  fields [(0, bitOf s.xu.inta), (1, bitOf s.xu.intb), (2, bitOf (decide (0 < s.tsu.warmCount)))]

/-- A word outside the latchable records, and 0 at an unserved address (R162). -/
def readPlain (a : Nat) (s : State) : Word :=
  if a < 0x080 then (headerWords s).getD a 0
  else if h : 0x080 ≤ a ∧ a < 0x280 then
    (slotWords s.xu.slots[(a - 0x080) / 32]).getD ((a - 0x080) % 32) 0
  else if h : 0x280 ≤ a ∧ a < 0x680 then
    (sampleWords s.pku.board[(a - 0x280) / 32]).getD ((a - 0x280) % 32) 0
  else if a = 0xFFC then 0x4E01
  else if a = 0xFFD then lineStatus s
  else 0

/-- The live word at a word address of the window (R162). -/
def readLive (a : Nat) (s : State) : Word :=
  match locate a with
  | some (k, i) => (recordWords k s).getD i 0
  | none => readPlain a s

end Sys2Proof.Machine
end

