-- ==== Sys2Proof/WellFormed.lean ====
section
/-! DEFINITION. Which terms of Instr stand for an event of their row. Index operands are bounded by
their types; what is left to check are the word addresses of the three general host accesses. An
ill-formed term is not refused by the machine: it acts as the same access of the host does (log
entry 13). -/

namespace Sys2Proof

/-- Word address of CONTROL, byte offset 0x1FFC (R162). -/
abbrev controlAddr : Nat := 0xFFE

/-- Is this word address the first word of a latchable record (R175, R176)? Base addresses and
lengths are those of R165 in words. -/
def isRecordFirstWord (addr : WordAddr) : Bool :=
  let a := addr.toNat
  (0x680 ≤ a && a < 0x780 && (a - 0x680) % 32 == 0)
  || a == 0x780
  || (0x800 ≤ a && a < 0x980 && (a - 0x800) % 32 == 0)
  || (0x980 ≤ a && a < 0xAB0 && (a - 0x980) % 16 == 0)
  || a == 0xB00 || a == 0xB80
  || a == 0xC00 || a == 0xD00

/-- Does a host write of this word to this address have a row of its own: an exchange reset, a
watched word with a value its rule takes (R163, R167, R40, R157, R168, R173, R174)? -/
def hasRowOfItsOwn (addr : WordAddr) (value : Word) : Bool :=
  let a := addr.toNat
  (a == controlAddr && value == 1)
  || (16 ≤ a && a < 40 && a % 4 == 2)
  || (16 ≤ a && a < 40 && a % 4 == 3)
  || (0x080 ≤ a && a < 0x280 && (a - 0x080) % 32 == 0 && (value == 0 || value == 1))
  || (0x280 ≤ a && a < 0x680 && (a - 0x280) % 32 == 0 && value == 1)
  || (0x980 ≤ a && a < 0xAB0 && (a - 0x980) % 16 == 8)

/-- The check on a term's address operands. -/
def Instr.wellFormed : Instr → Bool
  | .hostWrite addr value => !hasRowOfItsOwn addr value
  | .readRecordFirstWord addr => isRecordFirstWord addr
  | .readLatchedWord addr => !isRecordFirstWord addr
  | _ => true

end Sys2Proof
end

