-- ==== Sys2Proof/Machine/Exchange.lean ====
section
/-! DEFINITION. The exchange unit (10_the_exchange_memory_and_requests.md): host reads with the record
latch, host writes by the owner of the word, the posting queue and the request unit, the epoch
report, and the exchange reset. -/

namespace Sys2Proof.Machine

open Config

/-! ### The record latch (R176, R177) -/

def setLatch (l : Option LatchCopy) (s : State) : State := s.setXu { s.xu with latch := l }

/-- The latch released, as every host write does (R163, R177). -/
def releaseLatch (s : State) : State := setLatch none s

/-- Does the latch hold this record? -/
def latched (k : RecordId) (s : State) : Option (List Word) :=
  match s.xu.latch with
  | some c => if c.record = k then some c.words else none
  | none => none

/-- A host read: the rows of R176. The word is left on the data lines. -/
def hostRead (addr : WordAddr) (s : State) : State :=
  match locate addr.toNat with
  | none => s.setReadData (readPlain addr.toNat s)
  | some (k, i) =>
    if i = 0 then
      let copy := recordWords k s
      (setLatch (some ⟨k, copy⟩) s).setReadData (copy.getD 0 0)
    else match latched k s with
      | some copy =>
        let s := if i + 1 = recordLength k then releaseLatch s else s
        s.setReadData (copy.getD i 0)
      | none => s.setReadData ((recordWords k s).getD i 0)

/-! ### Request slots (R168, R169) -/

/-- A request slot replaced by its image. -/
def State.updSlot (s : State) (n : Slot) (f : RequestSlot → RequestSlot) : State :=
  s.setXu { s.xu with slots := updAt s.xu.slots n f }

/-- POSTED written to a FREE slot: it becomes POSTED and joins the queue's tail (R168, R169). -/
def postSlot (n : Slot) (s : State) : State :=
  if s.xu.slots[n].state = .free then
    let s := s.updSlot n fun q => { q with state := .posted }
    s.setXu { s.xu with queue := s.xu.queue ++ [n] }
  else s

/-- FREE written to a DONE slot (R168). -/
def freeSlotWrite (n : Slot) (s : State) : State :=
  if s.xu.slots[n].state = .done then s.updSlot n fun q => { q with state := .free } else s

/-- A word of a FREE slot other than its state word: kind, tag and parameters are stored (R168). -/
def writeSlotWord (w : Nat) (v : Word) (q : RequestSlot) : RequestSlot :=
  if q.state = .free then
    if w = 1 then { q with kind := v }
    else if w = 2 then { q with tag := v }
    else if 8 ≤ w then
      { q with params := Vector.ofFn fun i : Fin 24 => if i.val + 8 = w then v else q.params[i] }
    else q
  else q

/-- A host write to a request slot (R168). -/
def writeSlot (n : Slot) (w : Nat) (v : Word) (s : State) : State :=
  if w = 0 then
    if v = 1 then postSlot n s else if v = 0 then freeSlotWrite n s else s
  else s.updSlot n (writeSlotWord w v)

/-! ### Exchange reset (R164, R20, R53, R134, R146) -/

/-- The TSU's part: what the host has pending goes; LEAP-PENDING goes absent (R20). -/
def resetHostTime (s : State) : State :=
  let s := setLeap none s
  s.setTsu { s.tsu with
    setTime := none
    step := match s.tsu.step with
      | some (.loop v) => some (.loop v)
      | _ => none }

/-- The PTU's part: stagings discarded, measurements aborted and their claims released (R134, R146).
The port status records, which are live, show this at once (R138, R139, R175), although R164 and R175
have an exchange reset leave the status records as they stand (DEDUCED, log entry 56). -/
def resetPortsExchange (s : State) : State :=
  s.setPtu { s.ptu with
    ports := s.ptu.ports.map fun e => { e with staged := none, measuring := none }
    meas := Vector.replicate 2 none }

/-- The PKU's part: the sample board cleared (R53). -/
def resetBoard (s : State) : State := s.setPku { s.pku with board := Vector.replicate 32 emptySample }

/-- The XU's part (R164 steps 1 to 3): everything but the epoch pages. -/
def resetExchangeUnit (s : State) : State := s.setXu { resetXu with pages := s.xu.pages }

/-- An exchange reset (R164). -/
def exchangeReset (s : State) : State :=
  resetPortsExchange (resetBoard (resetHostTime (resetExchangeUnit s)))

/-! ### Host writes (R162, R163, R165, R167) -/

/-- A word of an attention block: ack and route words are watched (R167, R173, R174). -/
def writeAttention (c : AttnClass) (w : Nat) (v : Word) (s : State) : State :=
  if w = 2 then s.setXu (ackXu c v s.xu) else if w = 3 then s.setXu (routeXu c v s.xu) else s

/-- A word of a sample slot (R40). -/
def writeSample (n : SampleSlot) (w : Nat) (v : Word) (s : State) : State :=
  if w = 0 then (if v = 1 then judgeSlot n s else s)
  else s.setPku { s.pku with board := updAt s.pku.board n (writeSampleWord w v) }

/-- A word of an alarm entry: the ack word is watched (R157). -/
def writeAlarm (c : AlarmCode) (w : Nat) (v : Word) (s : State) : State :=
  if w = 8 then s.updAlarm c (ackAlarm v) else s

/-- A host write, stored, delivered or discarded by the owner of its word (R162, R165). -/
def storeWord (addr : WordAddr) (v : Word) (s : State) : State :=
  let a := addr.toNat
  if h : 16 ≤ a ∧ a < 40 then writeAttention ⟨(a - 16) / 4, by omega⟩ ((a - 16) % 4) v s
  else if h : 0x080 ≤ a ∧ a < 0x280 then
    writeSlot ⟨(a - 0x080) / 32, by omega⟩ ((a - 0x080) % 32) v s
  else if h : 0x280 ≤ a ∧ a < 0x680 then
    writeSample ⟨(a - 0x280) / 32, by omega⟩ ((a - 0x280) % 32) v s
  else if h : 0x980 ≤ a ∧ a < 0xAB0 then
    writeAlarm ⟨(a - 0x980) / 16, by omega⟩ ((a - 0x980) % 16) v s
  else if a = controlAddr ∧ v = 1 then exchangeReset s
  else s

/-- Every host write releases the latch (R177). -/
def hostWrite (addr : WordAddr) (v : Word) (s : State) : State := storeWord addr v (releaseLatch s)

/-! ### The request unit (R170) -/

/-- Is this the code of a request kind (R182)? -/
def knownKind (w : Word) : Bool := decide (1 ≤ w.toNat ∧ w.toNat ≤ 14)

/-- REQUEST_TAKE: the free unit takes the queue's head; an unknown kind completes INVALID at once
(R170). -/
def takeHead (s : State) : State :=
  match s.xu.unit, s.xu.queue with
  | none, n :: rest =>
    let s := (s.setXu { s.xu with queue := rest }).updSlot n fun q => { q with state := .taken }
    if knownKind s.xu.slots[n].kind then s.setXu { s.xu with unit := some n }
    else completeNow n .invalid s
  | _, _ => s

/-! ### The epoch report (R178, R179) -/

/-- The report for the second that boundary `b` began (R179). The loop's and the holdover unit's
fields, the selection and the alarm pins are those of the moment of the write (log entry 50). -/
def reportOf (b : Boundary) (v : HouValues) (ports : Vector PortState 12) (s : State) : Report where
  number := s.xu.attn[clsEpoch].count + 1
  bnd := b
  loop := s.lpu.state
  selected := s.qsu.selected
  freq := s.tsu.freq
  integral := s.lpu.integral
  lastE := s.lpu.lastE
  values := v
  fill := s.hou.fill
  aging := currentAging s.hou
  refs := s.qsu.refs.map fun e => (e.state, e.cause)
  ports := ports
  critPin := s.alu.critPin
  majPin := s.alu.majPin
  minPin := s.alu.minPin

/-- The page of a label (R178). -/
def pageOf (l : Label) : Fin 2 := ⟨l.toNat % 2, by omega⟩

/-- EPOCH_REPORT: written once the boundary, the HOU's values and the PTU's states are held (R178). It
may be written between a HOU_BOUNDARY and the INTERVAL_END that it makes due, and then shows the fill and
the current aging estimate from before the push; likewise the pins from before an alarm expiry that is
due (DESIGN CHOICE, log entry 54). -/
def takeEpoch (s : State) : State :=
  match s.wires.xuBnd, s.wires.xuValues, s.wires.xuPorts with
  | b :: bs, v :: vs, p :: ps =>
    let s := s.setWires { s.wires with xuBnd := bs, xuValues := vs, xuPorts := ps }
    bump clsEpoch
      (s.setXu { s.xu with pages := s.xu.pages.set (pageOf b.label) (some (reportOf b v p s)) })
  | _, _, _ => s

/-! ### Meanings -/

def execHostWrite (addr : WordAddr) (v : Word) (s : State) : Host.Outcome State Fault Refusal :=
  .next (hostWrite addr v s)

def execReadRecordFirstWord (addr : WordAddr) (s : State) : Host.Outcome State Fault Refusal :=
  .next (hostRead addr s)

def execReadLatchedWord (addr : WordAddr) (s : State) : Host.Outcome State Fault Refusal :=
  .next (hostRead addr s)

def execSampleReady (n : SampleSlot) (s : State) : Host.Outcome State Fault Refusal :=
  .next (judgeSlot n (releaseLatch s))

def execAlarmAck (c : AlarmCode) (v : Word) (s : State) : Host.Outcome State Fault Refusal :=
  .next ((releaseLatch s).updAlarm c (ackAlarm v))

def execAttentionAck (c : AttnClass) (v : Word) (s : State) : Host.Outcome State Fault Refusal :=
  let s := releaseLatch s
  .next (s.setXu (ackXu c v s.xu))

def execAttentionRoute (c : AttnClass) (v : Word) (s : State) : Host.Outcome State Fault Refusal :=
  let s := releaseLatch s
  .next (s.setXu (routeXu c v s.xu))

def execRequestPosted (n : Slot) (s : State) : Host.Outcome State Fault Refusal :=
  .next (postSlot n (releaseLatch s))

def execRequestSlotFree (n : Slot) (s : State) : Host.Outcome State Fault Refusal :=
  .next (freeSlotWrite n (releaseLatch s))

def execRequestTake (s : State) : Host.Outcome State Fault Refusal := .next (takeHead s)

def execEpochReport (s : State) : Host.Outcome State Fault Refusal := .next (takeEpoch s)

end Sys2Proof.Machine
end

