-- ==== Sys2Proof/Machine/Reset.lean ====
section
/-! DEFINITION. The three resets (section 1.10 of 00_scope.md): power-on, line and exchange. -/

namespace Sys2Proof.Machine

open Config

/-- Warm-up time of the straps (R15). -/
def warmTime (w : BitVec 2) : Nat :=
  if w = 0 then 0 else if w = 1 then 120 else if w = 2 then 600 else 1800

/-- The conditions that R160 names as present after a reset, as their owners hand them. -/
def replayed (warm : Nat) (clamped : Bool) : List CondChange :=
  [⟨codeTimeNotSet, true⟩] ++ (if 0 < warm then [⟨codeWarmUp, true⟩] else [])
    ++ (if clamped then [⟨codeFreqLimit, true⟩] else [])

/-- The reset values of every block, the LINE-x-OK levels and the command queue kept (log entries 11,
36). -/
def resetBlocks (s : State) : State :=
  { State.reset with
    cap := { resetCap with lineOk := s.cap.lineOk }
    qsu := { resetQsu with lineOk := s.qsu.lineOk }
    pending := s.pending }

/-- POWER_ON_RESET with the strap levels sampled as it ends (R15, R16, R18, R160). -/
def powerOn (warm : BitVec 2) (start : Bool) (s : State) : State :=
  let n := warmTime warm
  { resetBlocks s with
    tsu := { resetTsu with warmCount := n, warmStrap := warm, startStrap := start }
    lpu := { resetLpu with warmHold := decide (0 < n) }
    wires := { noWires with conds := replayed n false } }

/-- The HOU after a line reset: levels, fill and D_learn kept (R101). -/
def lineResetHou (h : Hou) : Hou :=
  { resetHou with levels := h.levels, fill := h.fill, dLearn := h.dLearn }

/-- The F in force after a line reset, and whether its clamp changed the base (R19, R111). The base
takes the default aging mode, D_cfg, D_max and interval (log entry 52). -/
def lineResetFreq (h : Hou) : Int × Bool :=
  match lineResetBase (lineResetHou h) with
  | none => (0, false)
  | some f => (clampAbs f defaultLoopConfig.fLimit, clampAbs f defaultLoopConfig.fLimit != f)

/-- LINE_RESET (R19, R78, R101, R111, R160). -/
def lineReset (s : State) : State :=
  let f := lineResetFreq s.hou
  let t := s.tsu
  { resetBlocks s with
    tsu := { resetTsu with
      freq := f.1, warmCount := t.warmCount, warmStrap := t.warmStrap, startStrap := t.startStrap }
    lpu := { resetLpu with
      integral := f.1, warmHold := decide (0 < t.warmCount), freqLimit := f.2 }
    hou := lineResetHou s.hou
    wires := { noWires with conds := replayed t.warmCount f.2 } }

/-! ### Meanings -/

def execPowerOnReset (warm : BitVec 2) (start : Bool) (s : State) :
    Host.Outcome State Fault Refusal := .next (powerOn warm start s)

def execLineReset (s : State) : Host.Outcome State Fault Refusal := .next (lineReset s)

def execExchangeReset (s : State) : Host.Outcome State Fault Refusal := .next (exchangeReset s)

end Sys2Proof.Machine
end

