-- ==== Sys2Proof/Machine/Dispatch.lean ====
section
/-! DEFINITION. The dispatch of commands: one arm per constructor of Instr, each one direct call of
its meaning. -/

namespace Sys2Proof.Machine

def exec (i : Instr) (s : State) : Host.Outcome State Fault Refusal :=
  match i with
  | .powerOnReset warm start => Sys2Proof.Machine.execPowerOnReset warm start s
  | .lineReset => Sys2Proof.Machine.execLineReset s
  | .exchangeReset => Sys2Proof.Machine.execExchangeReset s
  | .hostWrite addr value => Sys2Proof.Machine.execHostWrite addr value s
  | .readRecordFirstWord addr => Sys2Proof.Machine.execReadRecordFirstWord addr s
  | .readLatchedWord addr => Sys2Proof.Machine.execReadLatchedWord addr s
  | .oscInCycle => Sys2Proof.Machine.execOscInCycle s
  | .secondBoundary => Sys2Proof.Machine.execSecondBoundary s
  | .warmUpEnd => Sys2Proof.Machine.execWarmUpEnd s
  | .negativeStepHoldEnd => Sys2Proof.Machine.execNegativeStepHoldEnd s
  | .ppsChannelBoundary c => Sys2Proof.Machine.execPpsChannelBoundary c s
  | .ppsLeadingEdge c => Sys2Proof.Machine.execPpsLeadingEdge c s
  | .ppsTrailingEdge c => Sys2Proof.Machine.execPpsTrailingEdge c s
  | .windowClose c => Sys2Proof.Machine.execWindowClose c s
  | .dividerEdge d => Sys2Proof.Machine.execDividerEdge d s
  | .dividerBoundary d => Sys2Proof.Machine.execDividerBoundary d s
  | .marker d => Sys2Proof.Machine.execMarker d s
  | .missingTimerExpiry d => Sys2Proof.Machine.execMissingTimerExpiry d s
  | .lineOkChangeCapture l level => Sys2Proof.Machine.execLineOkChangeCapture l level s
  | .lineOkChangeQsu l level => Sys2Proof.Machine.execLineOkChangeQsu l level s
  | .auxLeadingEdge a => Sys2Proof.Machine.execAuxLeadingEdge a s
  | .sampleReady n => Sys2Proof.Machine.execSampleReady n s
  | .packetEvaluation => Sys2Proof.Machine.execPacketEvaluation s
  | .measurementArrival r => Sys2Proof.Machine.execMeasurementArrival r s
  | .jumpVerdict => Sys2Proof.Machine.execJumpVerdict s
  | .loopSelectionChange => Sys2Proof.Machine.execLoopSelectionChange s
  | .forwardedMeasurement => Sys2Proof.Machine.execForwardedMeasurement s
  | .unusableNotice => Sys2Proof.Machine.execUnusableNotice s
  | .loopStepOrder => Sys2Proof.Machine.execLoopStepOrder s
  | .loopStateChangeTsu => Sys2Proof.Machine.execLoopStateChangeTsu s
  | .lpuBoundary => Sys2Proof.Machine.execLpuBoundary s
  | .historyFeed => Sys2Proof.Machine.execHistoryFeed s
  | .uncertaintyValue => Sys2Proof.Machine.execUncertaintyValue s
  | .guardPopNotice => Sys2Proof.Machine.execGuardPopNotice s
  | .loopStateChangeHou => Sys2Proof.Machine.execLoopStateChangeHou s
  | .houBoundary => Sys2Proof.Machine.execHouBoundary s
  | .intervalEnd => Sys2Proof.Machine.execIntervalEnd s
  | .ptuBoundaryWork => Sys2Proof.Machine.execPtuBoundaryWork s
  | .periodBegin p => Sys2Proof.Machine.execPeriodBegin p s
  | .portEdge p => Sys2Proof.Machine.execPortEdge p s
  | .siteTimeMessage p => Sys2Proof.Machine.execSiteTimeMessage p s
  | .periodNotice a => Sys2Proof.Machine.execPeriodNotice a s
  | .windowTimerExpiry a => Sys2Proof.Machine.execWindowTimerExpiry a s
  | .measurementInterrupted a => Sys2Proof.Machine.execMeasurementInterrupted a s
  | .conditionChange code => Sys2Proof.Machine.execConditionChange code s
  | .aluBoundary => Sys2Proof.Machine.execAluBoundary s
  | .raiseDelayExpiry code => Sys2Proof.Machine.execRaiseDelayExpiry code s
  | .clearDelayExpiry code => Sys2Proof.Machine.execClearDelayExpiry code s
  | .alarmAck code value => Sys2Proof.Machine.execAlarmAck code value s
  | .epochReport => Sys2Proof.Machine.execEpochReport s
  | .requestPosted n => Sys2Proof.Machine.execRequestPosted n s
  | .requestSlotFree n => Sys2Proof.Machine.execRequestSlotFree n s
  | .requestTake => Sys2Proof.Machine.execRequestTake s
  | .configureReference => Sys2Proof.Machine.execConfigureReference s
  | .setPriority => Sys2Proof.Machine.execSetPriority s
  | .declareReference => Sys2Proof.Machine.execDeclareReference s
  | .selectMode => Sys2Proof.Machine.execSelectMode s
  | .holdoverControl => Sys2Proof.Machine.execHoldoverControl s
  | .configureLoop => Sys2Proof.Machine.execConfigureLoop s
  | .configureHoldover => Sys2Proof.Machine.execConfigureHoldover s
  | .clearHistory => Sys2Proof.Machine.execClearHistory s
  | .setTime => Sys2Proof.Machine.execSetTime s
  | .stepPhase => Sys2Proof.Machine.execStepPhase s
  | .scheduleLeap => Sys2Proof.Machine.execScheduleLeap s
  | .configurePort => Sys2Proof.Machine.execConfigurePort s
  | .measurePortDelay => Sys2Proof.Machine.execMeasurePortDelay s
  | .configureAlarm => Sys2Proof.Machine.execConfigureAlarm s
  | .attentionAck c value => Sys2Proof.Machine.execAttentionAck c value s
  | .attentionRoute c value => Sys2Proof.Machine.execAttentionRoute c value s

end Sys2Proof.Machine
end

