-- ==== Sys2Proof/Safety.lean ====
section
/-! DEFINITION. What a safe state of the part is, and the frames in which the statements speak. Each
law below is one the manual states of the whole part; none is a premise of a meaning. -/

namespace Sys2Proof.Safety

open Sys2Proof.Machine Config

/-! ### Laws of a state -/

/-- Is an attention class routed to this line pending (R174)? -/
def LineSource (r : Route) (s : State) : Prop :=
  ∃ c : AttnClass, s.xu.attn[c].pending = true ∧ s.xu.attn[c].route = r

/-- Is an unmasked alarm entry of this severity RAISED or CLEARING (R155)? -/
def PinSource (v : Severity) (s : State) : Prop :=
  ∃ c : AlarmCode, s.alu.entries[c].severity = v ∧ s.alu.entries[c].mask = false
    ∧ (s.alu.entries[c].state = .raised ∨ s.alu.entries[c].state = .clearing)

/-- The alarm pins stand exactly as their sources say (R155). -/
def PinsSettled (s : State) : Prop :=
  (s.alu.critPin = true ↔ PinSource .critical s) ∧ (s.alu.majPin = true ↔ PinSource .major s)
  ∧ (s.alu.minPin = true ↔ PinSource .minor s)

/-- The interrupt lines (R174) and the alarm pins (R155) stand exactly as their sources say. -/
def OutputsSettled (s : State) : Prop :=
  (s.xu.inta = true ↔ LineSource .inta s) ∧ (s.xu.intb = true ↔ LineSource .intb s)
  ∧ PinsSettled s

/-- The posting queue holds each POSTED slot exactly once and no other (R169). -/
def QueueLaw (s : State) : Prop :=
  s.xu.queue.Nodup ∧ ∀ n : Slot, n ∈ s.xu.queue ↔ s.xu.slots[n].state = .posted

/-- The QSU is still in warm-up: the count is above 0, or its end has been raised and not yet taken
(R71, R76, log entry 46). -/
abbrev Warming (s : State) : Prop := 0 < s.tsu.warmCount ∨ s.wires.warmEnd = true

/-- The selected reference is a candidate, none is selected in warm-up or forced holdover, and
FORCE-INEFFECTIVE says what R73 says (R70, R71, R73). -/
def SelectionLaw (s : State) : Prop :=
  (∀ r : Ref, s.qsu.selected = some r →
    s.qsu.refs[r].state = .qualified ∧ 1 ≤ s.qsu.refs[r].cfg.priority
      ∧ s.qsu.refs[r].cfg.priority ≤ 15)
  ∧ (Warming s ∨ s.qsu.forcedHoldover = true → s.qsu.selected = none)
  ∧ (s.qsu.forceIneffective = true ↔ s.qsu.forced ≠ none ∧ s.qsu.forced ≠ s.qsu.selected)

/-- U is within its range and at its maximum in FREE-RUN, and the class and both conditions of the HOU
are what R113 to R115 derive (R112 to R115). The last clause says that no state change to FREE-RUN
waits for the HOU, since FREE-RUN is entered by reset alone. -/
def UncertaintyLaw (s : State) : Prop :=
  s.hou.u ≤ uMax ∧ s.hou.uEntry ≤ uMax
  ∧ (s.hou.loop = .freeRun → s.hou.u = uMax)
  ∧ (s.hou.loop = .freeRun → s.hou.quality = 3)
  ∧ (s.hou.loop ≠ .freeRun → s.hou.cfg.uAlarm < s.hou.u → s.hou.quality = 2)
  ∧ (s.hou.loop = .track → s.hou.u ≤ s.hou.cfg.uAlarm → s.hou.u ≤ 100000 → s.hou.quality = 0)
  ∧ (s.hou.loop ≠ .freeRun → s.hou.u ≤ s.hou.cfg.uAlarm →
      ¬(s.hou.loop = .track ∧ s.hou.u ≤ 100000) → s.hou.quality = 1)
  ∧ (s.hou.budget = true ↔ s.hou.cfg.uAlarm < s.hou.u ∧ s.hou.loop ≠ .freeRun)
  ∧ (s.hou.notReady = true ↔
      (s.hou.loop = .acquire ∨ s.hou.loop = .track ∨ s.hou.loop = .assisted)
        ∧ s.hou.fill < s.hou.cfg.ready)
  ∧ ∀ before i, HouEvent.state before .freeRun i ∉ s.wires.houIn

/-- The counts of the history lie in their ranges, the position below the interval (R101, R116). An
interval that has ended has its position back at 0 before its INTERVAL_END is taken (R102, log
entry 8). -/
def HistoryLaw (s : State) : Prop :=
  s.hou.fill ≤ 8 ∧ s.hou.count ≤ 65535 ∧ s.hou.clock ≤ 4294967295
  ∧ 16 ≤ s.hou.cfg.interval ∧ s.hou.cfg.interval ≤ 3600
  ∧ s.hou.position < s.hou.cfg.interval
  ∧ (s.hou.ended = true → s.hou.position = 0)

/-- F and I lie within ±F_limit, and F_limit within its range (R4, R78, R98). -/
def FrequencyLaw (s : State) : Prop :=
  1000 ≤ s.lpu.cfg.fLimit ∧ s.lpu.cfg.fLimit ≤ 50000000
  ∧ s.tsu.freq.natAbs ≤ s.lpu.cfg.fLimit ∧ s.lpu.integral.natAbs ≤ s.lpu.cfg.fLimit

/-- The fraction and its residue are in range, and the step log holds at most four entries (R3, R4,
R13). -/
def TimescaleLaw (s : State) : Prop :=
  s.tsu.frac < psPerSecond ∧ s.tsu.residue < residueUnit ∧ s.tsu.stepLog.length ≤ 4

/-- Every sample slot is EMPTY between commands, and each packet window holds at most 16 samples (R41,
R44). -/
def PacketLaw (s : State) : Prop :=
  (∀ n : SampleSlot, s.pku.board[n].state = .empty)
  ∧ ∀ k : PacketId, s.pku.refs[k].window.length ≤ 16

/-- A port has a measurement in flight exactly when it holds an AUX claim (R141). -/
def ClaimLaw (s : State) : Prop :=
  ∀ (p : Port) (a : AuxId),
    s.ptu.ports[p].measuring = some a ↔ s.ptu.meas[a].map (·.port) = some p

/-- The condition, state, count and acknowledged flag of an alarm entry agree (R151 to R154, R157). -/
def AlarmLaw (s : State) : Prop :=
  ∀ c : AlarmCode,
    let e := s.alu.entries[c]
    (e.condition = true ↔ e.state = .raising ∨ e.state = .raised)
    ∧ (e.acked = true → e.state = .raised ∨ e.state = .clearing)
    ∧ (e.state = .clear ∨ e.state = .raised → e.count = 0)

/-- A port that is not RUNNING holds its pin as R122 says and has no period (R122, R123). -/
def PortLaw (s : State) : Prop :=
  ∀ p : Port,
    let e := s.ptu.ports[p]
    (e.state = .off → e.pin = .highZ ∧ e.armed = [] ∧ e.progress = none)
    ∧ (e.state = .squelched → e.pin = e.active.level ∧ e.armed = [] ∧ e.progress = none)

/-! ### Commands by what they are -/

/-- Is the command a host write (R167, R177)? -/
def isHostWrite : Instr → Bool
  | .hostWrite _ _ | .sampleReady _ | .alarmAck _ _ | .requestPosted _ | .requestSlotFree _
  | .attentionAck _ _ | .attentionRoute _ _ => true
  | _ => false

/-- Is the command a host read? -/
def isHostRead : Instr → Bool
  | .readRecordFirstWord _ | .readLatchedWord _ => true
  | _ => false

/-- Is the command a reset? -/
def isReset : Instr → Bool
  | .powerOnReset _ _ | .lineReset | .exchangeReset => true
  | _ => false

/-! ### Candidates (R70) -/

/-- A candidate: QUALIFIED, with a priority of 1 to 15. -/
def Candidate (q : Qsu) (r : Ref) : Prop :=
  q.refs[r].state = .qualified ∧ 1 ≤ q.refs[r].cfg.priority ∧ q.refs[r].cfg.priority ≤ 15

/-- The best candidate, or none where there is no candidate. -/
def Best (q : Qsu) (o : Option Ref) : Prop :=
  (o = none ↔ ∀ r, ¬Candidate q r)
  ∧ ∀ r, o = some r → Candidate q r ∧ ∀ x, Candidate q x →
      q.refs[r].cfg.priority < q.refs[x].cfg.priority
      ∨ (q.refs[r].cfg.priority = q.refs[x].cfg.priority ∧ r ≤ x)

/-- `new` is what a selection review gives, `warm` saying whether the QSU is still in warm-up (R71,
R72): none in warm-up and forced holdover, else a forced candidate, else the selected candidate as the
mode keeps it, else the best candidate. -/
def Reviewed (warm : Prop) (q : Qsu) (new : Option Ref) : Prop :=
  (warm ∨ q.forcedHoldover = true → new = none)
  ∧ (¬warm → q.forcedHoldover = false →
      (∀ f, q.forced = some f → Candidate q f → new = some f)
      ∧ ((∀ f, q.forced = some f → ¬Candidate q f) →
          ((∀ c, q.selected = some c → ¬Candidate q c) → Best q new)
          ∧ ∀ c, q.selected = some c → Candidate q c →
              (q.revertive = false → new = some c)
              ∧ (q.revertive = true → ∃ b, Best q (some b) ∧
                  new = if q.refs[b].cfg.priority < q.refs[c].cfg.priority then some b
                    else some c)))

/-! ### Attention classes (R172) -/

/-- How often R172 has a class bumped for what differs between two states: DONE once for each slot now
DONE, ALARM for each unmasked alarm entry in another state, SELECT for another selected reference, PORT for
each port in another state. -/
def bumpsShown (s t : State) (c : AttnClass) : Nat :=
  if c = clsDone then (List.finRange 16).countP fun n : Slot =>
    decide (s.xu.slots[n].state ≠ .done ∧ t.xu.slots[n].state = .done)
  else if c = clsAlarm then (List.finRange 19).countP fun a : AlarmCode =>
    decide (t.alu.entries[a].mask = false ∧ s.alu.entries[a].state ≠ t.alu.entries[a].state)
  else if c = clsSelect then (if t.qsu.selected = s.qsu.selected then 0 else 1)
  else if c = clsPort then (List.finRange 12).countP fun p : Port =>
    decide (s.ptu.ports[p].state ≠ t.ptu.ports[p].state)
  else 0

/-- Each class has been bumped as often as R172 says, and is otherwise as it was. `extra` names the bumps
for what the two states do not show: an epoch report, a sample slot returned, a loop state change without
a selection change, the ending of a delay measurement. -/
def AttnBumped (extra : List AttnClass) (s t : State) : Prop :=
  ∀ (c : AttnClass) (n : Nat), n = bumpsShown s t c + extra.count c →
    t.xu.attn[c] = { s.xu.attn[c] with
      pending := s.xu.attn[c].pending || decide (0 < n)
      count := s.xu.attn[c].count + BitVec.ofNat 16 n }

/-- What a change of selection tells the loop and the host, and what no change does not (R77, R172). -/
def SelectionTold (fault : Bool) (s t : State) : Prop :=
  AttnBumped [] s t
  ∧ (t.qsu.selected = s.qsu.selected →
    t.wires.loopIn = s.wires.loopIn ∧ t.xu.attn[clsSelect].count = s.xu.attn[clsSelect].count)
  ∧ (t.qsu.selected ≠ s.qsu.selected →
    t.wires.loopIn = s.wires.loopIn ++ [.selection s.qsu.selected t.qsu.selected fault]
    ∧ t.xu.attn[clsSelect].count = s.xu.attn[clsSelect].count + 1
    ∧ t.xu.attn[clsSelect].pending = true)

/-! ### Places in the window (R165) -/

/-- Word address of a latchable record's first word. -/
def recordBase : RecordId → Nat
  | .refStatus r => 0x680 + 32 * r.val
  | .loopStatus => 0x780
  | .portStatus p => 0x800 + 32 * p.val
  | .alarm c => 0x980 + 16 * c.val
  | .page p => 0xB00 + 128 * p.val
  | .readout k => 0xC00 + 256 * k.val

/-! ### Words as the host reads them (R181, R182) -/

/-- Word `i` of a run of words, as a number. -/
def word (l : List Word) (i : Nat) : Nat := (l.getD i 0).toNat

/-- Two words from `i`, the low word first (R181). -/
def dword (l : List Word) (i : Nat) : Nat := word l i + 65536 * word l (i + 1)

/-- Three words from `i`, the low word first (R181). -/
def tword (l : List Word) (i : Nat) : Nat := dword l i + 4294967296 * word l (i + 2)

/-- The words hold this unsigned figure in one, two or three words. -/
def Shows16 (l : List Word) (i v : Nat) : Prop := word l i = v % 65536
def Shows32 (l : List Word) (i v : Nat) : Prop := dword l i = v % 4294967296
def Shows48 (l : List Word) (i v : Nat) : Prop := tword l i = v % 281474976710656

/-- Two words hold this ppt figure in two's complement, saturated (R181). -/
def ShowsPpt (l : List Word) (i : Nat) (x : Int) : Prop :=
  (dword l i : Int) = max (-2147483648) (min 2147483647 x) % 4294967296

/-- Two words hold this time in two's complement, where it fits them (R181; else log entry 15). -/
def ShowsPs32 (l : List Word) (i : Nat) (x : Int) : Prop :=
  -2147483648 ≤ x → x ≤ 2147483647 → (dword l i : Int) = x % 4294967296

/-- Three words hold this time in two's complement, where it fits them (R181; else log entry 15). -/
def ShowsPs48 (l : List Word) (i : Nat) (x : Int) : Prop :=
  -140737488355328 ≤ x → x ≤ 140737488355327 → (tword l i : Int) = x % 281474976710656

/-- `n` words from `i` read 0. -/
def ReadsZero (l : List Word) (i n : Nat) : Prop := ∀ j, j < n → word l (i + j) = 0

/-- A field of `n` words that may be absent: 0 while it is, else as `shows` says (R181). -/
def ShowsOption {α : Type} (l : List Word) (i n : Nat) (o : Option α) (shows_ : α → Prop) : Prop :=
  (o = none → ReadsZero l i n) ∧ ∀ v, o = some v → shows_ v

/-- A reference index or 0xFFFF (R181). -/
def ShowsRefIndex (l : List Word) (i : Nat) (o : Option Ref) : Prop :=
  (o = none → word l i = 0xFFFF) ∧ ∀ r, o = some r → word l i = r.val

/-- The codes of R182 that records show. -/
def CodesOfR182 : Prop :=
  [LoopState.freeRun, .acquire, .track, .assisted, .holdover].map LoopState.num = [0, 1, 2, 3, 4]
  ∧ [RefState.disabled, .qualifying, .qualified, .faulted].map RefState.num = [0, 1, 2, 3]
  ∧ [none, some Cause.missing, some .spurious, some .width, some .range, some .delay,
      some .tolerancePhase, some .toleranceFreq, some .jump, some .declared, some .loss].map causeNum
    = [0, 1, 2, 3, 4, 5, 6, 7, 8, 9, 10]
  ∧ [RawOutcome.clean, .spurious, .width, .missing, .range, .delay].map RawOutcome.num
    = [1, 2, 3, 4, 5, 6]
  ∧ [DividerState.idle, .loading, .counting].map DividerState.num = [0, 1, 2]
  ∧ [StepPolicy.never, .firstLock, .always].map StepPolicy.num = [0, 1, 2]
  ∧ [PortMode.off, .pulse, .frequency, .timecode].map PortMode.num = [0, 1, 2, 3]
  ∧ [PortState.off, .squelched, .running].map PortState.num = [0, 1, 2]
  ∧ [Polarity.normal, .inverted].map Polarity.num = [0, 1]
  ∧ [SquelchPolicy.runAlways, .onBudget, .unlocked].map SquelchPolicy.num = [0, 1, 2]
  ∧ [PinLevel.low, .high, .highZ].map PinLevel.num = [0, 1, 2]
  ∧ [9600, 19200, 38400, 115200].map baudNum = [0, 1, 2, 3]
  ∧ [Verdict.none_, .accepted, .badRef, .badField, .order, .range, .negative, .stale, .future,
      .duplicate].map Verdict.num = [0, 1, 2, 3, 4, 5, 6, 7, 8, 9]
  ∧ [SampleState.empty, .ready].map SampleState.num = [0, 1]
  ∧ [SlotState.free, .posted, .taken, .done].map SlotState.num = [0, 1, 2, 3]
  ∧ [AlarmState.clear, .raising, .raised, .clearing].map AlarmState.num = [0, 1, 2, 3]
  ∧ [Severity.critical, .major, .minor, .warning].map Severity.num = [0, 1, 2, 3]
  ∧ [Route.none_, .inta, .intb].map Route.num = [0, 1, 2]
  ∧ [Completion.ok, .adjusted, .superseded, .busy, .invalid, .notPermitted, .noReturn, .unstable,
      .interrupted, .missed].map Completion.code = [1, 2, 3, 4, 5, 6, 7, 8, 9, 10]

/-! ### Records as the host reads them (R187 to R190) -/

/-- The words of a reference status record that every kind has; `flags`, `span` and `e` are what its
kind adds (R187). -/
def ShowsRefCommon (e : RefEntry) (flags span : Nat) (phase : Option Int) (l : List Word) : Prop :=
  Shows16 l 0 (e.state.num + 4 * causeNum e.cause + 64 * (e.last.map (·.raw.num)).getD 0
    + 512 * (e.last.map fun m => causeNum m.judged).getD 0)
  ∧ Shows16 l 1 (e.cfg.enabled.toNat + 2 * e.declaredValid.toNat + 8 * e.last.isSome.toNat
      + 16 * (e.last.any (·.repeated)).toNat + 32 * (e.last.any (·.newChain)).toNat
      + 128 * phase.isSome.toNat + 256 * (e.last.any (·.delta.isSome)).toNat + flags)
  ∧ Shows16 l 2 (e.cfg.priority + 16 * e.cfg.badLimit + 256 * e.badCount + 8192 * span)
  ∧ (e.state = .disabled → word l 3 = 0)
  ∧ (e.state = .qualifying ∨ e.state = .qualified → Shows16 l 3 e.qualifyCount)
  ∧ (e.state = .faulted → Shows16 l 3 e.dwellCount)
  ∧ Shows16 l 4 e.cfg.qualifyTime ∧ Shows16 l 5 e.cfg.dwell ∧ Shows32 l 6 e.cfg.freqTol
  ∧ ShowsOption l 8 3 e.last (fun m => tword l 8 = m.label.toNat)
  ∧ ShowsOption l 11 3 phase (ShowsPs48 l 11)
  ∧ ShowsOption l 14 2 (e.last.bind (·.delta)) (ShowsPpt l 14)

/-- A reference status record (R187; the interval of a divider by log entry 17, its span by 53). -/
def ShowsRef (r : Ref) (s : State) (l : List Word) : Prop :=
  let e := s.qsu.refs[r]
  (∀ c : PpsChannelId, r = ppsRef c →
    ShowsRefCommon e (4096 * s.cap.pps[c].detailEdges) 0 (e.last.bind (·.e)) l
    ∧ ShowsPs32 l 16 e.cfg.compensation ∧ Shows32 l 18 e.cfg.accuracy
    ∧ Shows48 l 20 e.cfg.phaseTol ∧ Shows48 l 23 e.cfg.wMin ∧ Shows48 l 26 e.cfg.wMax
    ∧ ShowsOption l 29 3 s.cap.pps[c].detailWidth (ShowsPs48 l 29))
  ∧ (∀ d : DividerId, r = divRef d →
    (∀ line : Bool, (∀ x : LineId, d = lineDiv x → line = s.cap.lineOk[x]) →
      ((∀ x : LineId, d ≠ lineDiv x) → line = false) →
      ShowsRefCommon e (4 * line.toNat + 64 * s.cap.div[d].chain.isSome.toNat
          + 1024 * s.cap.div[d].state.num) (s.cap.div[d].detailSpan.getD 0)
        s.cap.div[d].detailInterval l)
    ∧ Shows32 l 16 e.cfg.nominal ∧ Shows32 l 18 e.cfg.gross ∧ ReadsZero l 20 12)
  ∧ (∀ k : PacketId, r = pktRef k →
    ShowsRefCommon e (512 * s.pku.stepMark.isSome.toNat) 0 (e.last.bind (·.e)) l
    ∧ ShowsPs32 l 16 e.cfg.compensation ∧ Shows32 l 18 e.cfg.accuracy
    ∧ Shows48 l 20 e.cfg.phaseTol ∧ Shows48 l 23 e.cfg.delayLimit
    ∧ Shows16 l 26 (e.cfg.span + 32 * s.pku.refs[k].window.length
        + 1024 * s.pku.refs[k].lastInSpan)
    ∧ Shows16 l 27 s.pku.refs[k].lastAccepted ∧ Shows16 l 28 s.pku.refs[k].lastRejected
    ∧ ShowsOption l 29 3 s.pku.stepMark (fun m => tword l 29 = m.toNat))

/-- The loop status record; the bits of word 3 stand in the order R187 names them (log entry 16). -/
def ShowsLoop (s : State) (l : List Word) : Prop :=
  let u := s.lpu
  let c := s.lpu.cfg
  let h := s.hou
  (∀ permitted : Bool, (permitted = true ↔ c.policy = .always
      ∨ c.policy = .firstLock ∧ u.firstLockSpent = false) →
    Shows16 l 3 (permitted.toNat + 2 * u.firstLockSpent.toNat + 4 * u.stepPending.toNat
      + 8 * u.pseudo.isSome.toNat + 16 * u.lastE.isSome.toNat + 32 * u.lastX.isSome.toNat
      + 64 * u.lastP.isSome.toNat + 128 * u.freqLimit.toNat + 256 * u.noReference.toNat
      + 512 * u.freeRunning.toNat + 1024 * h.budget.toNat + 2048 * h.notReady.toNat
      + 4096 * h.dLearn.isSome.toNat))
  ∧ Shows16 l 0 (u.state.num + 8 * s.qsu.revertive.toNat + 16 * s.qsu.forcedHoldover.toNat
      + 32 * u.warmHold.toNat + 256 * h.quality)
  ∧ ShowsRefIndex l 1 s.qsu.selected ∧ ShowsRefIndex l 2 s.qsu.forced
  ∧ ShowsPpt l 4 s.tsu.freq ∧ ShowsPpt l 6 u.integral
  ∧ ShowsOption l 8 3 u.lastE (ShowsPs48 l 8) ∧ ShowsOption l 11 3 u.lastX (ShowsPs48 l 11)
  ∧ ShowsOption l 14 2 u.lastP (ShowsPpt l 14)
  ∧ Shows16 l 16 (u.lockCount + 256 * u.unlockCount) ∧ Shows16 l 17 u.outliers
  ∧ ShowsOption l 18 3 u.pseudo (ShowsPs48 l 18)
  ∧ Shows16 l 21 c.acqP ∧ Shows16 l 22 c.acqI ∧ Shows16 l 23 c.trackP ∧ Shows16 l 24 c.trackI
  ∧ Shows48 l 25 c.stepThreshold ∧ Shows48 l 28 c.unlockThreshold ∧ Shows48 l 31 c.lockThreshold
  ∧ Shows16 l 34 c.lockLimit ∧ Shows16 l 35 c.unlockLimit ∧ Shows32 l 36 c.fLimit
  ∧ Shows16 l 38 c.policy.num ∧ word l 39 = 0
  ∧ (∀ i : Fin 8, ShowsPpt l (40 + 2 * i.val) h.levels[i])
  ∧ Shows16 l 56 h.fill ∧ ShowsPs48 l 57 h.sum ∧ Shows16 l 60 h.count ∧ Shows16 l 61 h.position
  ∧ ShowsOption l 62 2 h.dLearn (ShowsPpt l 62) ∧ ShowsPpt l 64 (currentAging h)
  ∧ ShowsPpt l 66 h.fBase ∧ ShowsPpt l 68 h.dHold ∧ Shows32 l 70 h.clock
  ∧ Shows48 l 72 h.uEntry ∧ Shows48 l 75 h.u ∧ ReadsZero l 78 2
  ∧ Shows16 l 80 h.cfg.interval ∧ Shows16 l 81 h.cfg.guards ∧ word l 82 = h.cfg.fixedAging.toNat
  ∧ ShowsPpt l 83 h.cfg.dCfg ∧ Shows32 l 85 h.cfg.dMax ∧ Shows32 l 87 h.cfg.yHold
  ∧ Shows32 l 89 h.cfg.aging ∧ Shows32 l 91 h.cfg.yAssist ∧ Shows48 l 93 h.cfg.uAlarm
  ∧ Shows16 l 96 h.cfg.ready ∧ ReadsZero l 97 31

/-- A settings block from word `i` (R187). -/
def ShowsSettings (l : List Word) (i : Nat) (p : PortSettings) : Prop :=
  word l i = p.mode.num + 4 * p.polarity.num + 8 * p.policy.num + 32 * p.level.num
    + 128 * baudNum p.baud
  ∧ ShowsPs32 l (i + 1) p.compensation ∧ Shows32 l (i + 3) p.width ∧ Shows32 l (i + 5) p.freq
  ∧ Shows48 l (i + 7) p.limit

/-- The masks of a delay measurement: bit k − 1 for R_k missing, bit 7 + k for R_k decided, a missing
one among them (R185, log entry 40). -/
def ShowsMasks (w : Word) (m : DelayMeas) : Prop :=
  ∀ k : Fin 8, w.getLsbD k.val = decide (m.samples[k] = .missing)
    ∧ w.getLsbD (8 + k.val) = decide (m.samples[k] ≠ .notTaken)

/-- The sixteen result words of a measurement's ending: outcome, samples present, masks, extremes and
spread, mean and one-way delay, what is staged and whether it was clamped, flags (R144, R185). -/
def ShowsResult (l : List Word) (outcome : Word) (m : DelayMeas) (present : List Int)
    (mean : Option Int) (staged : Option (Int × Bool)) : Prop :=
  l.getD 0 0 = outcome ∧ Shows16 l 1 present.length ∧ ShowsMasks (l.getD 2 0) m
  ∧ (present = [] → ReadsZero l 3 6)
  ∧ (∀ lo ∈ present, ∀ hi ∈ present, (∀ x ∈ present, lo ≤ x ∧ x ≤ hi) →
      ShowsPs32 l 3 lo ∧ ShowsPs32 l 5 hi ∧ ShowsPs32 l 7 (hi - lo))
  ∧ ShowsOption l 9 4 mean (fun x => ShowsPs32 l 9 x ∧ ShowsPs32 l 11 (x / 2))
  ∧ ShowsOption l 13 2 staged (fun c => ShowsPs32 l 13 c.1)
  ∧ (∀ some_ : Bool, (some_ = true ↔ present ≠ []) →
      Shows16 l 15 (some_.toNat + 2 * mean.isSome.toNat + 4 * staged.isSome.toNat
        + 8 * (staged.any (·.2)).toNat))

/-- A port status record (R187). -/
def ShowsPort (p : Port) (s : State) (l : List Word) : Prop :=
  let e := s.ptu.ports[p]
  let m := e.measuring.bind fun a => s.ptu.meas[a]
  (∀ origin : Nat, (e.staged = none → origin = 0) →
    (∀ g slot c, e.staged = some ⟨g, .request slot, c⟩ → origin = 1) →
    (∀ g c, e.staged = some ⟨g, .measurement, c⟩ → origin = 2) →
    Shows16 l 0 (e.state.num + 4 * origin + 16 * e.measuring.isSome.toNat
      + 32 * (e.measuring.map (·.val + 1)).getD 0 + 128 * (e.staged.any (·.clamped)).toNat
      + 256 * (m.map (·.k)).getD 0 + 4096 * e.lastEdge.isSome.toNat
      + 8192 * e.lastMessage.isSome.toNat))
  ∧ ShowsSettings l 1 e.active
  ∧ ShowsOption l 11 10 e.staged (fun g => ShowsSettings l 11 g.settings)
  ∧ ShowsOption l 21 1 m (ShowsMasks (l.getD 21 0))
  ∧ ShowsOption l 22 6 e.lastEdge (fun i => tword l 22 = i.label.toNat ∧ Shows48 l 25 i.ps)
  ∧ ShowsOption l 28 3 e.lastMessage (fun m => tword l 28 = m.toNat) ∧ word l 31 = 0

/-- An alarm entry record (R188). -/
def ShowsAlarm (e : AlarmEntry) (l : List Word) : Prop :=
  Shows16 l 0 (e.state.num + 4 * e.severity.num + 16 * e.mask.toNat + 32 * e.condition.toNat
    + 64 * e.acked.toNat + 128 * e.lastChange.isSome.toNat)
  ∧ Shows16 l 1 (e.raiseDelay + 256 * e.clearDelay) ∧ Shows16 l 2 e.count ∧ Shows16 l 3 e.raises
  ∧ l.getD 4 0 = e.stamp ∧ ShowsOption l 5 3 e.lastChange (fun m => tword l 5 = m.toNat)
  ∧ l.getD 8 0 = e.ackWord ∧ ReadsZero l 9 7

/-- An epoch report page (R189). -/
def ShowsReport (r : Report) (l : List Word) : Prop :=
  l.getD 0 0 = r.number ∧ tword l 1 = r.bnd.label.toNat
  ∧ (∀ del loopStep : Bool, (del = true ↔ r.bnd.leap = some .delete) →
      (loopStep = true ↔ ∃ v, r.bnd.step = some (v, .loop)) →
      word l 4 = r.bnd.repeated.toNat + 2 * r.bnd.timeSet.toNat + 4 * r.bnd.leap.isSome.toNat
        + 8 * del.toNat + 16 * r.bnd.warmUp.toNat + 32 * r.bnd.step.isSome.toNat
        + 64 * loopStep.toNat + 256 * r.lastE.isSome.toNat)
  ∧ ShowsPs48 l 5 ((r.bnd.step.map (·.1)).getD 0)
  ∧ Shows16 l 8 (r.loop.num + 256 * r.values.quality) ∧ ShowsRefIndex l 9 r.selected
  ∧ ShowsPpt l 10 r.freq ∧ ShowsPpt l 12 r.integral
  ∧ ShowsOption l 14 3 r.lastE (ShowsPs48 l 14) ∧ Shows48 l 17 r.values.u
  ∧ Shows16 l 20 r.fill ∧ ShowsPpt l 21 r.aging
  ∧ (∀ x : Ref, word l (23 + x.val) = r.refs[x].1.num + 256 * causeNum r.refs[x].2)
  ∧ (∀ p : Port, word l (31 + p.val) = r.ports[p].num)
  ∧ word l 43 = r.critPin.toNat + 2 * r.majPin.toNat + 4 * r.minPin.toNat ∧ ReadsZero l 44 84

/-- A packet window readout: position k of the window in the words from 16 (k − 1), the oldest entry
first (R54, R190). -/
def ShowsWindow (w : List WindowEntry) (l : List Word) : Prop :=
  ∀ k : Fin 16, ShowsOption l (16 * k.val) 16 w[k.val]? fun e =>
    word l (16 * k.val) = 1 + 2 * e.inSpan.toNat + 4 * e.chosen.toNat
    ∧ tword l (16 * k.val + 1) = e.label.toNat ∧ tword l (16 * k.val + 4) = e.t2.label.toNat
    ∧ Shows48 l (16 * k.val + 7) e.t2.ps ∧ ShowsPs48 l (16 * k.val + 10) e.o
    ∧ ShowsPs48 l (16 * k.val + 13) e.d

/-- The words of a latchable record are those of its layout (R175, R187 to R190). -/
def ShowsRecord (s : State) (l : List Word) : RecordId → Prop
  | .refStatus r => ShowsRef r s l
  | .loopStatus => ShowsLoop s l
  | .portStatus p => ShowsPort p s l
  | .alarm c => ShowsAlarm s.alu.entries[c] l
  | .page p => (s.xu.pages[p] = none → ReadsZero l 0 128)
      ∧ ∀ r, s.xu.pages[p] = some r → ShowsReport r l
  | .readout k => ShowsWindow s.pku.refs[k].window l

/-! ### Points of a period (R124 to R128) -/

/-- The point `x` ps after a plan's compensated boundary, rounded down to the grid, lies `ps` ps into
the second with ordinal `sec`: that of the plan, the one before it or the one after it (R124). -/
def LiesAt (p : Plan) (x sec ps : Nat) : Prop :=
  (sec : Int) * 1000000000000 + ps
    = p.second * 1000000000000 + ((x : Int) - p.settings.compensation) / 125 * 125
  ∧ ps < 1000000000000 ∧ p.second ≤ sec + 1 ∧ sec ≤ p.second + 1

/-- The timescale has reached the point, and the positive step that began the current second has not
skipped it (R124, R128). -/
def Reached (t : Tsu) (sec ps : Nat) : Prop :=
  (sec < t.second ∨ sec = t.second ∧ t.hold = none ∧ ps ≤ t.frac)
  ∧ ¬(sec = t.second ∧ ps < t.skipTo)

/-- A period has an edge `k`, at offset `x` from its compensated boundary (R125, R126). -/
def EdgeOffset (p : PortSettings) (k x : Nat) : Prop :=
  (p.mode = .frequency → k < 2 * p.freq ∧ x = k * 1000000000000 / (2 * p.freq * 125) * 125)
  ∧ (p.mode ≠ .frequency → p.mode ≠ .off ∧ k < 2 ∧ x = if k = 0 then 0 else p.width * 1000)

/-- Exactly the first `n` edges of a plan lie before a point, counted in ps from the beginning of the
second with ordinal 0 (R128). -/
def EarlierEdges (p : Plan) (point : Int) (n : Nat) : Prop :=
  (∀ k x, EdgeOffset p.settings k x →
    (k < n ↔ p.second * 1000000000000 + ((x : Int) - p.settings.compensation) / 125 * 125 < point))
  ∧ (0 < n → ∃ x, EdgeOffset p.settings (n - 1) x)

/-- Offset of bit `j` of the site time message; 140 is its end (R127). -/
def messagePoint (baud j : Nat) : Nat :=
  20000000000 + j * 1000000000000 / (baud * 125) * 125

/-- Bit `j` of a message's bytes on the line: a start bit 0, the byte least significant bit first, a
stop bit 1 (R127). -/
def LineBit (bytes : List Byte) (j : Nat) (v : Bool) : Prop :=
  (j % 10 = 0 → v = false) ∧ (j % 10 = 9 → v = true)
  ∧ (0 < j % 10 → j % 10 < 9 → v = (bytes.getD (j / 10) 0).getLsbD (j % 10 - 1))

/-- `run` ps of timescale running separate the point `ps` of the second with ordinal `sec` from the
present: within one second the difference of the fractions, and beyond a boundary what was left of the
second with what the next one has run, its hold included and its step not (R10, R142). -/
def RunSince (t : Tsu) (sec ps : Nat) (run : Int) : Prop :=
  ∀ now ran : Int, (t.due = none → now = t.frac) →
    (∀ x, t.due = some x → now = 1000000000000 + x) →
    (t.hold = none → ran = now - t.secondStep) → (∀ h, t.hold = some h → ran = h.run) →
    (sec = t.second → run = now - ps)
    ∧ (sec < t.second → run = ((t.second : Int) - sec) * 1000000000000 - ps + ran)

/-! ### The step log (R13) and the message's CRC (R137) -/

/-- A log entry is still needed: by a divider whose open interval began before it, or by one that is not
IDLE and has yet to take its boundary (R13, log entry 7). -/
def Needed (s : State) (l : LoggedStep) : Prop :=
  ∃ d : DividerId, (∃ ch, s.cap.div[d].chain = some ch ∧ ch.note < l.entry)
    ∨ s.cap.div[d].state ≠ .idle ∧ s.tsu.logged
        - (s.wires.divBnd[d].filter fun b => b.step.any fun p => p.1 != 0).length < l.entry

/-- The TSU is as it was but for its step log, which keeps its order and exactly the entries that are still
needed (R13, log entry 7). -/
def LogPruned (s t : State) : Prop :=
  t.tsu = { s.tsu with stepLog := t.tsu.stepLog } ∧ t.tsu.stepLog.Sublist s.tsu.stepLog
  ∧ ∀ l ∈ s.tsu.stepLog, l ∈ t.tsu.stepLog ↔ Needed t l

/-- The bits of a byte, the most significant first (R137). -/
def bitsOf (x : Byte) : List Bool := (List.range 8).map fun i => x.getLsbD (7 - i)

/-! ### Frames -/

/-- The parts of a State. -/
inductive Block where
  | tsu | cap | pku | qsu | lpu | hou | ptu | alu | xu | wires | readData
  deriving DecidableEq, Repr

/-- Every part but those listed is as it was; so is the command queue. -/
def KeepsAllBut (bs : List Block) (s t : State) : Prop :=
  (Block.tsu ∈ bs ∨ t.tsu = s.tsu) ∧ (Block.cap ∈ bs ∨ t.cap = s.cap)
  ∧ (Block.pku ∈ bs ∨ t.pku = s.pku) ∧ (Block.qsu ∈ bs ∨ t.qsu = s.qsu)
  ∧ (Block.lpu ∈ bs ∨ t.lpu = s.lpu) ∧ (Block.hou ∈ bs ∨ t.hou = s.hou)
  ∧ (Block.ptu ∈ bs ∨ t.ptu = s.ptu) ∧ (Block.alu ∈ bs ∨ t.alu = s.alu)
  ∧ (Block.xu ∈ bs ∨ t.xu = s.xu) ∧ (Block.wires ∈ bs ∨ t.wires = s.wires)
  ∧ (Block.readData ∈ bs ∨ t.readData = s.readData) ∧ t.pending = s.pending

/-- The request unit holds slot `n` with a request of this kind, to be taken by its owner (R170). -/
def Held (n : Slot) (kind : Nat) (s : State) : Prop :=
  s.xu.unit = some n ∧ s.xu.slots[n].state = .taken ∧ s.xu.slots[n].kind.toNat = kind

/-- Slot `n` with a completion code, a completion label and no result, DONE (R171). -/
def doneSlot (n : Slot) (code : Word) (label : Label) (s : State) : RequestSlot :=
  { s.xu.slots[n] with code := code, label := label, state := .done }

/-- The exchange unit has these slots and holds this request; each class has been bumped as R172 says,
DONE once for each completion (R171 step 5), with `extra` as in AttnBumped; the rest of the unit but the
interrupt lines, which the classes settle (R174), is as it was. -/
def ChangesXu (slots : Vector RequestSlot 16) (unit_ : Option Slot) (extra : List AttnClass)
    (s t : State) : Prop :=
  t.xu = { s.xu with
      slots := slots
      unit := unit_
      attn := t.xu.attn
      inta := t.xu.inta
      intb := t.xu.intb }
  ∧ AttnBumped extra s t

/-- The held request in slot `n` is completed with a code and label and no result, DONE is bumped, the
unit holds no request, and no other slot, the queue, latch or page changes (R170, R171). -/
def CompletesHeld (n : Slot) (code : Word) (label : Label) (s t : State) : Prop :=
  ChangesXu (s.xu.slots.set n (doneSlot n code label s)) none [] s t
  ∧ t.xu.attn[clsDone].count = s.xu.attn[clsDone].count + 1
  ∧ t.xu.attn[clsDone].pending = true

/-! ### Conditions handed to the alarm unit (R150) -/

/-- What a condition with this presence before and after hands the alarm unit: its change, or nothing
where the presence is the same (R150). -/
def handed (code : AlarmCode) (before after : Bool) : List CondChange :=
  if before = after then [] else [⟨code, after⟩]

/-- The class and both conditions of the HOU are what R113 to R115 derive from its other fields. -/
def HouSettled (h : Hou) : Prop :=
  h.quality = (if h.loop = .freeRun then 3 else if h.cfg.uAlarm < h.u then 2
    else if h.loop = .track ∧ h.u ≤ 100000 then 0 else 1)
  ∧ (h.budget = true ↔ h.cfg.uAlarm < h.u ∧ h.loop ≠ .freeRun)
  ∧ (h.notReady = true ↔ (h.loop = .acquire ∨ h.loop = .track ∨ h.loop = .assisted)
      ∧ h.fill < h.cfg.ready)

/-- What the HOU hands of BUDGET-EXCEEDED (code 9) and HOLDOVER-NOT-READY (code 18) as its fields
change: each change of presence (R114, R115). The alarm unit takes each code by itself, so the order of
the two says nothing. -/
def houHanded (before after : Hou) : List CondChange :=
  handed 9 before.budget after.budget ++ handed 18 before.notReady after.notReady

/-- A selection review runs and nothing else follows it: `w` and `q` are the wires and the QSU as the
review finds them. The selection is what the review gives, its change is told, FORCE-INEFFECTIVE (code 15)
is settled and a change of it handed, and the rest of the QSU and of the wires stands (R71, R73, R77).
That the review takes the QSU to be in warm-up until WARM_UP_END is the model's (log entry 46). -/
def ReviewRuns (w : Wires) (q : Qsu) (fault : Bool) (s t : State) : Prop :=
  Reviewed (Warming s) q t.qsu.selected ∧ SelectionTold fault s t
  ∧ (t.qsu.forceIneffective = true ↔ q.forced ≠ none ∧ q.forced ≠ t.qsu.selected)
  ∧ t.qsu = { q with
      selected := t.qsu.selected
      forceIneffective := t.qsu.forceIneffective }
  ∧ t.wires = { w with
      loopIn := t.wires.loopIn
      conds := w.conds ++ handed 15 q.forceIneffective t.qsu.forceIneffective }

/-- The held request is parked: the unit holds none, the rest of the exchange unit is as it was
(R170). -/
def ParksHeld (s t : State) : Prop := t.xu = { s.xu with unit := none }

end Sys2Proof.Safety
end

