-- ==== Sys2Proof/Certificates/Slice0/Obligations.lean ====
section
/-! DEFINITION. The statements about the part, each a proposition for the provers. Names of rules in
the docstrings are those of spec/. A statement of the form "there is t with exec … = next t and …"
says that the command completes and what it leaves; KeepsAllBut names the blocks it may touch. -/

section

open Sys2Proof Sys2Proof.Machine Sys2Proof.Safety Sys2Proof.Config

/-! ### The step and the laws every step keeps -/

/-- The step takes the command at the front of the queue and runs it on the rest; with none waiting
the block idles (the queue and the idling are the model's: log entries 1 and 3). -/
def Obligations.StepTakesTheFrontCommand : Prop :=
  ∀ s : State,
    (∀ c rest, s.pending = c :: rest → step s = exec c (s.withPending rest))
    ∧ (s.pending = [] → step s = .next s)

/-- The state after a power-on reset meets every law of Safety.lean. -/
def Obligations.ResetMeetsTheLaws : Prop :=
  OutputsSettled State.reset ∧ QueueLaw State.reset ∧ SelectionLaw State.reset
  ∧ UncertaintyLaw State.reset ∧ HistoryLaw State.reset ∧ FrequencyLaw State.reset
  ∧ TimescaleLaw State.reset
  ∧ PacketLaw State.reset ∧ ClaimLaw State.reset ∧ AlarmLaw State.reset ∧ PortLaw State.reset

/-- R174 and R155: after every step the interrupt lines and the alarm pins are what their sources
say. -/
def Obligations.StepKeepsOutputsSettled : Prop :=
  ∀ s s' : State, OutputsSettled s → step s = .next s' → OutputsSettled s'

/-- R169: the posting queue holds each POSTED slot exactly once and no other slot. R41, R44: every
sample slot is EMPTY again and each packet window holds at most 16 samples. -/
def Obligations.StepKeepsPostingQueue : Prop :=
  (∀ s s' : State, QueueLaw s → step s = .next s' → QueueLaw s')
  ∧ (∀ s s' : State, PacketLaw s → step s = .next s' → PacketLaw s')

/-- R70, R71, R73, R76: only a candidate is ever selected, none in warm-up or forced holdover, and
FORCE-INEFFECTIVE stays settled. That the QSU is in warm-up until it has taken the end of it, whatever
runs the review, is the model's (log entry 46). -/
def Obligations.StepKeepsSelectionSound : Prop :=
  ∀ s s' : State, SelectionLaw s → step s = .next s' → SelectionLaw s'

/-- R112 to R115: U keeps its range and is U_max in FREE-RUN, and class and conditions stay derived
from it. R101, R102, R116: the fill, the accumulator count, the holdover clock, the interval and the
position keep their ranges, the position below the interval. That an interval which has ended waits, with
the position at 0, for its INTERVAL_END is the model's (log entry 8). -/
def Obligations.StepKeepsUncertaintySound : Prop :=
  (∀ s s' : State, UncertaintyLaw s → step s = .next s' → UncertaintyLaw s')
  ∧ (∀ s s' : State, HistoryLaw s → step s = .next s' → HistoryLaw s')

/-- R4, R78: F and I stay within F_limit, whichever block writes them. R3, R4, R13: the fraction and
its residue stay in range and the step log within its four entries. -/
def Obligations.StepKeepsFrequencyBounded : Prop :=
  (∀ s s' : State, FrequencyLaw s → step s = .next s' → FrequencyLaw s')
  ∧ (∀ s s' : State, TimescaleLaw s → step s = .next s' → TimescaleLaw s')

/-- R151 to R154, R157: condition, state, count and acknowledged flag of each alarm entry agree. That
the count is 0 in CLEAR and RAISED, where the rules only say that it is discarded, is the model's
(log entry 39). -/
def Obligations.StepKeepsAlarmEntries : Prop :=
  ∀ s s' : State, AlarmLaw s → step s = .next s' → AlarmLaw s'

/-- R122, R123: a port that is OFF or SQUELCHED holds its pin and has no period. R141: a port is marked
as measured on an AUX channel exactly while that channel's record names it. R123 moves the pin at a change
of state: that the pin of a port which stays SQUELCHED as new settings become active goes to the level of
those settings, so that it stands at the level of the settings now active after every step, is the model's
(DEDUCED, log entry 26). -/
def Obligations.StepKeepsQuietPorts : Prop :=
  (∀ s s' : State, PortLaw s → step s = .next s' → PortLaw s')
  ∧ (∀ s s' : State, ClaimLaw s → step s = .next s' → ClaimLaw s')

/-- R177, and that nothing but a host access or a reset touches the record latch: every host write and
every reset releases it, so does the read of the latched record's last word; the first word of any
record latches that record; with the latch released, the other words are live. A read is named by
the word it reads; that it acts so under either read command is the model's choice (log entry 13). -/
def Obligations.LatchMovesByHostAccessOnly : Prop :=
  ∀ (c : Instr) (s t : State), exec c s = .next t →
    ((isHostWrite c = true ∨ isReset c = true) → t.xu.latch = none)
    ∧ (isHostWrite c = false → isHostRead c = false → isReset c = false →
        t.xu.latch = s.xu.latch)
    ∧ (∀ (addr : WordAddr) (k : RecordId) (i : Nat) (copy : List Word),
        c = .readLatchedWord addr ∨ c = .readRecordFirstWord addr →
        addr.toNat = recordBase k + i → i < recordLength k →
        (i = 0 → t.xu.latch = some ⟨k, recordWords k s⟩)
        ∧ (0 < i → i + 1 = recordLength k → s.xu.latch = some ⟨k, copy⟩ → t.xu.latch = none)
        ∧ (0 < i → s.xu.latch = none → t = { s with readData := (recordWords k s).getD i 0 }))

/-! ### Resets -/

/-- POWER_ON_RESET (R15, R16, R18, R22, R34, R53, R56, R70, R73, R78, R101, R119, R139, R148, R160, R180):
every block at its reset value, straps and warm-up count sampled, the conditions of R160 handed, no other
condition present. The model's own fields of the timescale unit (log entries 6, 7 and 28), the kept
LINE-x-OK levels (log entry 11), the divider counts of 0 and the data lines at 0 (log entry 12), the fields
of other kinds in a reference entry (log entry 22), and that every waiting event goes while the command
queue stays (log entry 36) are the model's. -/
def Obligations.PowerOnResetsThePart : Prop :=
  ∀ (warm : BitVec 2) (start : Bool) (s : State), ∃ t,
    exec (.powerOnReset warm start) s = .next t
    ∧ t.tsu.label = 0 ∧ t.tsu.frac = 0 ∧ t.tsu.residue = 0 ∧ t.tsu.freq = 0
    ∧ t.tsu.setTime = none ∧ t.tsu.step = none ∧ t.tsu.leap = none ∧ t.tsu.hold = none
    ∧ t.tsu.due = none ∧ t.tsu.repeated = false ∧ t.tsu.timeSet = false ∧ t.tsu.stepLog = []
    ∧ t.tsu.warmStrap = warm ∧ t.tsu.startStrap = start
    ∧ t.tsu = { resetTsu with
        warmCount := t.tsu.warmCount
        warmStrap := t.tsu.warmStrap
        startStrap := t.tsu.startStrap }
    ∧ (warm = 0 → t.tsu.warmCount = 0) ∧ (warm = 1 → t.tsu.warmCount = 120)
    ∧ (warm = 2 → t.tsu.warmCount = 600) ∧ (warm = 3 → t.tsu.warmCount = 1800)
    ∧ (∀ r : Ref, t.qsu.refs[r] = resetRef r) ∧ t.qsu.selected = none ∧ t.qsu.forced = none
    ∧ t.qsu.forcedHoldover = false ∧ t.qsu.revertive = false ∧ t.qsu.forceIneffective = false
    ∧ t.qsu = { resetQsu with lineOk := s.qsu.lineOk }
    ∧ t.lpu = { resetLpu with warmHold := decide (0 < t.tsu.warmCount) }
    ∧ t.hou = resetHou ∧ t.ptu = resetPtu ∧ t.alu = resetAlu ∧ t.xu = resetXu ∧ t.pku = resetPku
    ∧ t.cap = { resetCap with lineOk := s.cap.lineOk }
    ∧ t.wires = { noWires with
        conds := if warm = 0 then [⟨13, true⟩] else [⟨13, true⟩, ⟨12, true⟩] }
    ∧ t.readData = 0 ∧ t.pending = s.pending

/-- LINE_RESET (R18, R19, R78, R101, R111, R160): warm-up progress, straps and learned history kept; F
and I at the clamped line-reset base of the kept stack, or 0 with an empty one, FREQUENCY-LIMIT
present where the clamp changed it; every other block as after a power-on, with the conditions of
R160 handed. A hold under way and a second complete but for its boundary go with the fraction. That the base
takes the default aging mode, D_cfg, D_max and interval (log entry 52), the model's own fields of the
timescale unit (log entries 6, 7 and 28), the kept LINE-x-OK levels (log entry 11), the divider counts of 0
and the data lines at 0 (log entry 12), the fields of other kinds in a reference entry (log entry 22), and
that every waiting event goes while the command queue stays (log entry 36) are the model's. -/
def Obligations.LineResetKeepsTheHistory : Prop :=
  ∀ s : State, ∃ t, exec .lineReset s = .next t
    ∧ t.tsu.label = 0 ∧ t.tsu.frac = 0 ∧ t.tsu.residue = 0 ∧ t.tsu.setTime = none
    ∧ t.tsu.step = none ∧ t.tsu.leap = none ∧ t.tsu.repeated = false ∧ t.tsu.timeSet = false
    ∧ t.tsu.stepLog = [] ∧ t.tsu.hold = none ∧ t.tsu.due = none
    ∧ t.tsu.warmCount = s.tsu.warmCount
    ∧ t.tsu.warmStrap = s.tsu.warmStrap ∧ t.tsu.startStrap = s.tsu.startStrap
    ∧ t.tsu = { resetTsu with
        freq := t.tsu.freq
        warmCount := s.tsu.warmCount
        warmStrap := s.tsu.warmStrap
        startStrap := s.tsu.startStrap }
    ∧ t.hou = { resetHou with
        levels := s.hou.levels, fill := s.hou.fill, dLearn := s.hou.dLearn }
    ∧ (s.hou.fill = 0 → t.tsu.freq = 0)
    ∧ (∀ base : Int, s.hou.fill ≠ 0 →
        base = roundDiv ((s.hou.levels.toList.take s.hou.fill).sum) s.hou.fill
          + roundDiv (clampAbs (s.hou.dLearn.getD 0) 5000 * ((s.hou.fill * 300 : Nat) : Int))
              172800 →
        t.tsu.freq = clampAbs base 10000000
        ∧ (t.lpu.freqLimit = true ↔ 10000000 < base.natAbs))
    ∧ (s.hou.fill = 0 → t.lpu.freqLimit = false)
    ∧ t.lpu = { resetLpu with
        integral := t.tsu.freq
        warmHold := decide (0 < s.tsu.warmCount)
        freqLimit := t.lpu.freqLimit }
    ∧ (∀ r : Ref, t.qsu.refs[r] = resetRef r)
    ∧ t.qsu = { resetQsu with lineOk := s.qsu.lineOk }
    ∧ t.cap = { resetCap with lineOk := s.cap.lineOk }
    ∧ t.wires = { noWires with
        conds := [⟨13, true⟩] ++ (if 0 < s.tsu.warmCount then [⟨12, true⟩] else [])
          ++ (if t.lpu.freqLimit = true then [⟨11, true⟩] else []) }
    ∧ t.ptu = resetPtu ∧ t.alu = resetAlu ∧ t.xu = resetXu
    ∧ t.pku = resetPku ∧ t.readData = 0 ∧ t.pending = s.pending

/-- EXCHANGE_RESET (R20, R53, R134, R146, R164): the exchange side cleared, what the host had pending
removed without completion, everything else running on. That the events waiting between the blocks stay
(log entry 36), that the host data lines do (log entry 12), and that a port's status record shows the
cleared staging and measurement at once (log entry 56), are the model's. -/
def Obligations.ExchangeResetLeavesTiming : Prop :=
  ∀ s : State, ∃ t, exec .exchangeReset s = .next t
    ∧ t.xu = { resetXu with pages := s.xu.pages }
    ∧ (∀ n : SampleSlot, t.pku.board[n] = emptySample)
    ∧ t.pku = { s.pku with board := t.pku.board }
    ∧ (∀ p : Port, t.ptu.ports[p] = { s.ptu.ports[p] with staged := none, measuring := none })
    ∧ (∀ a : AuxId, t.ptu.meas[a] = none)
    ∧ t.ptu.squelched = s.ptu.squelched ∧ t.ptu.delayFailed = s.ptu.delayFailed
    ∧ (∀ v, s.tsu.step = some (.loop v) → t.tsu = { s.tsu with setTime := none, leap := none })
    ∧ ((∀ v, s.tsu.step ≠ some (.loop v)) →
        t.tsu = { s.tsu with setTime := none, leap := none, step := none })
    ∧ t.wires = { s.wires with
        conds := if s.tsu.leap = none then s.wires.conds else s.wires.conds ++ [⟨16, false⟩] }
    ∧ KeepsAllBut [.tsu, .pku, .ptu, .xu, .wires] s t

/-! ### Host access -/

/-- A word the host may write in a FREE request slot or an EMPTY sample slot is stored; written in a
slot that is not the host's, or at a word that is not the host's, it is discarded; so is a CONTROL
value other than 1, and a state word written with a value that its slot does not take. Every write
releases the latch (R40, R162, R163, R165, R168, R177, R183, R185, R186). -/
def Obligations.HostWritesReachTheirOwner : Prop :=
  (∀ (s : State) (addr : WordAddr) (v : Word) (n : Slot) (w : Nat), 1 ≤ w → w < 32 →
    addr.toNat = 0x080 + 32 * n.val + w → ∃ t, exec (.hostWrite addr v) s = .next t
    ∧ (s.xu.slots[n].state = .free → w = 1 →
        t.xu.slots = s.xu.slots.set n { s.xu.slots[n] with kind := v })
    ∧ (s.xu.slots[n].state = .free → w = 2 →
        t.xu.slots = s.xu.slots.set n { s.xu.slots[n] with tag := v })
    ∧ (∀ i : Fin 24, s.xu.slots[n].state = .free → w = 8 + i.val →
        t.xu.slots = s.xu.slots.set n
          { s.xu.slots[n] with params := s.xu.slots[n].params.set i v })
    ∧ (s.xu.slots[n].state ≠ .free ∨ 3 ≤ w ∧ w < 8 → t.xu.slots = s.xu.slots)
    ∧ t.xu = { s.xu with slots := t.xu.slots, latch := none } ∧ KeepsAllBut [.xu] s t)
  ∧ (∀ (s : State) (addr : WordAddr) (v : Word) (n : SampleSlot) (w : Nat), 1 ≤ w → w < 32 →
    addr.toNat = 0x280 + 32 * n.val + w → ∃ t, exec (.hostWrite addr v) s = .next t
    ∧ (s.pku.board[n].state = .empty → w = 1 →
        t.pku.board = s.pku.board.set n { s.pku.board[n] with ref := v })
    ∧ (∀ i : Fin 24, s.pku.board[n].state = .empty → w = 6 + i.val →
        t.pku.board = s.pku.board.set n
          { s.pku.board[n] with words := s.pku.board[n].words.set i v })
    ∧ (s.pku.board[n].state = .ready ∨ 2 ≤ w ∧ w < 6 ∨ 30 ≤ w → t.pku.board = s.pku.board)
    ∧ t.pku = { s.pku with board := t.pku.board } ∧ t.xu = { s.xu with latch := none }
    ∧ KeepsAllBut [.pku, .xu] s t)
  ∧ (∀ (s : State) (addr : WordAddr) (v : Word),
    (addr.toNat < 16 ∨ (16 ≤ addr.toNat ∧ addr.toNat < 40 ∧ addr.toNat % 4 < 2)
      ∨ (40 ≤ addr.toNat ∧ addr.toNat < 0x080) ∨ (0x680 ≤ addr.toNat ∧ addr.toNat < 0x980)
      ∨ (0x980 ≤ addr.toNat ∧ addr.toNat < 0xAB0 ∧ addr.toNat % 16 ≠ 8)
      ∨ (0xAB0 ≤ addr.toNat ∧ addr.toNat ≠ 0xFFE) ∨ (addr.toNat = 0xFFE ∧ v ≠ 1)) →
    exec (.hostWrite addr v) s = .next { s with xu := { s.xu with latch := none } })
  ∧ (∀ (s : State) (addr : WordAddr) (v : Word) (n : Slot), addr.toNat = 0x080 + 32 * n.val →
    (1 < v.toNat ∨ v = 1 ∧ s.xu.slots[n].state ≠ .free
      ∨ v = 0 ∧ s.xu.slots[n].state ≠ .done) →
    exec (.hostWrite addr v) s = .next { s with xu := { s.xu with latch := none } })
  ∧ (∀ (s : State) (addr : WordAddr) (v : Word) (n : SampleSlot),
    addr.toNat = 0x280 + 32 * n.val → v ≠ 1 ∨ s.pku.board[n].state = .ready →
    exec (.hostWrite addr v) s = .next { s with xu := { s.xu with latch := none } })

/-- The rows of the record latch: the first word copies the record, the words of the latched record
come from the copy, the last of them releases it, the words of another record are live, and every
record fills its area (R165, R176). What each latchable record holds, word by word (R175, R181, R187
to R190), and the codes it shows (R182). The words of a figure that does not fit them (log entry 15),
the order of the loop's flags (log entry 16), the interval and the span a divider's record shows (log
entries 17 and 53), the taken mask (log entry 40), what a read shows before an interval's end or an alarm
expiry that is due (log entry 54), and that a port's record is live through an exchange reset (log entry
56) are the model's. -/
def Obligations.ReadsGoThroughTheLatch : Prop :=
  (∀ (s : State) (addr : WordAddr) (k : RecordId) (i : Nat), i < recordLength k →
    addr.toNat = recordBase k + i →
    (i = 0 → exec (.readRecordFirstWord addr) s = .next
      { s with
        xu := { s.xu with latch := some ⟨k, recordWords k s⟩ }
        readData := (recordWords k s).getD 0 0 })
    ∧ (∀ copy, 0 < i → s.xu.latch = some ⟨k, copy⟩ → exec (.readLatchedWord addr) s = .next
      { s with
        xu := { s.xu with latch := if i + 1 = recordLength k then none else some ⟨k, copy⟩ }
        readData := copy.getD i 0 })
    ∧ (0 < i → (∀ c, s.xu.latch = some c → c.record ≠ k) →
      exec (.readLatchedWord addr) s = .next { s with readData := (recordWords k s).getD i 0 })
    ∧ (recordWords k s).length = recordLength k)
  ∧ (∀ (s : State) (k : RecordId), ShowsRecord s (recordWords k s) k)
  ∧ CodesOfR182

/-- What words outside the latchable records read, the latch left alone: every word of the header, its
straps, queue fill and attention blocks among them, every word of the request and sample slots, the
two readable registers, LINE STATUS with 0 in its unused bits, and 0 at an unserved offset (R162, R163,
R176, R181, R184, R185, R186). -/
def Obligations.PlainWordsRead : Prop :=
  ∀ (s : State) (addr : WordAddr),
    (addr.toNat = 0 → exec (.readLatchedWord addr) s = .next { s with readData := 0x004E })
    ∧ (addr.toNat = 1 → exec (.readLatchedWord addr) s = .next { s with readData := 0x0001 })
    ∧ (addr.toNat = 2 → exec (.readLatchedWord addr) s = .next { s with readData := 8 })
    ∧ (addr.toNat = 3 → exec (.readLatchedWord addr) s = .next { s with readData := 12 })
    ∧ (addr.toNat = 4 → exec (.readLatchedWord addr) s = .next { s with readData := 16 })
    ∧ (addr.toNat = 5 → exec (.readLatchedWord addr) s = .next { s with readData := 32 })
    ∧ (addr.toNat = 6 → exec (.readLatchedWord addr) s = .next { s with readData := 19 })
    ∧ (addr.toNat = 8 → exec (.readLatchedWord addr) s = .next
        { s with readData :=
            BitVec.ofNat 16 (s.tsu.warmStrap.toNat + 4 * s.tsu.startStrap.toNat) })
    ∧ (addr.toNat = 9 → exec (.readLatchedWord addr) s = .next
        { s with readData := BitVec.ofNat 16 s.xu.queue.length })
    ∧ (∀ c : AttnClass, addr.toNat = 16 + 4 * c.val → exec (.readLatchedWord addr) s = .next
        { s with readData := if s.xu.attn[c].pending = true then 1 else 0 })
    ∧ (∀ c : AttnClass, addr.toNat = 17 + 4 * c.val → exec (.readLatchedWord addr) s = .next
        { s with readData := s.xu.attn[c].count })
    ∧ (∀ c : AttnClass, addr.toNat = 18 + 4 * c.val → exec (.readLatchedWord addr) s = .next
        { s with readData := s.xu.attn[c].ack })
    ∧ (∀ c : AttnClass, addr.toNat = 19 + 4 * c.val → exec (.readLatchedWord addr) s = .next
        { s with readData :=
            match s.xu.attn[c].route with | .none_ => 0 | .inta => 1 | .intb => 2 })
    ∧ (∀ (n : Slot) (w : Nat) (q : RequestSlot), q = s.xu.slots[n] → w < 32 →
        addr.toNat = 0x080 + 32 * n.val + w → ∃ v,
        exec (.readLatchedWord addr) s = .next { s with readData := v }
        ∧ (w = 0 → v = match q.state with
            | .free => 0
            | .posted => 1
            | .taken => 2
            | .done => 3)
        ∧ (w = 1 → v = q.kind) ∧ (w = 2 → v = q.tag) ∧ (w = 3 → v = q.code)
        ∧ (∀ j : Fin 3, w = 4 + j.val → v = (labelWords q.label).getD j.val 0) ∧ (w = 7 → v = 0)
        ∧ (∀ j : Fin 24, w = 8 + j.val → v = q.params[j]))
    ∧ (∀ (n : SampleSlot) (w : Nat) (q : Sample), q = s.pku.board[n] → w < 32 →
        addr.toNat = 0x280 + 32 * n.val + w → ∃ v,
        exec (.readLatchedWord addr) s = .next { s with readData := v }
        ∧ (w = 0 → v = match q.state with | .empty => 0 | .ready => 1)
        ∧ (w = 1 → v = q.ref)
        ∧ (w = 2 → v = match q.verdict with
            | .none_ => 0
            | .accepted => 1
            | .badRef => 2
            | .badField => 3
            | .order => 4
            | .range => 5
            | .negative => 6
            | .stale => 7
            | .future => 8
            | .duplicate => 9)
        ∧ (∀ j : Fin 3, w = 3 + j.val → v = (labelWords q.takeLabel).getD j.val 0)
        ∧ (∀ j : Fin 24, w = 6 + j.val → v = q.words[j]) ∧ (30 ≤ w → v = 0))
    ∧ (addr.toNat = 0xFFC → exec (.readLatchedWord addr) s = .next { s with readData := 0x4E01 })
    ∧ (addr.toNat = 0xFFD → ∃ v, exec (.readLatchedWord addr) s = .next { s with readData := v }
        ∧ v.getLsbD 0 = s.xu.inta ∧ v.getLsbD 1 = s.xu.intb
        ∧ v.getLsbD 2 = decide (0 < s.tsu.warmCount) ∧ ∀ i, 3 ≤ i → v.getLsbD i = false)
    ∧ ((addr.toNat = 7 ∨ 10 ≤ addr.toNat ∧ addr.toNat < 16
        ∨ 40 ≤ addr.toNat ∧ addr.toNat < 0x080 ∨ 0xAB0 ≤ addr.toNat ∧ addr.toNat < 0xB00
        ∨ 0xE00 ≤ addr.toNat ∧ addr.toNat < 0xFFC ∨ 0xFFE ≤ addr.toNat) →
        exec (.readLatchedWord addr) s = .next { s with readData := 0 })

/-! ### The timescale -/

/-- OSC_IN_CYCLE (R3, R4, R10, R31, R142): 100,000 ps plus F / 10,000,000 ps are added exactly, the
part below 1 ps kept in the residue; in a hold the hold counts instead; the dividers' missing timers
and the return windows run with it. That a completed second stands at its last ps with the overshoot
kept until its boundary is taken is the model's (log entry 6). -/
def Obligations.OscillatorCycleAdvances : Prop :=
  ∀ s : State, s.tsu.due = none → (∀ h, s.tsu.hold = some h → h.run < h.length) →
    s.tsu.freq.natAbs ≤ 50000000 → ∃ t, ∃ adv : Nat, exec .oscInCycle s = .next t
    ∧ (adv : Int) * 10000000 + t.tsu.residue = 1000000000000 + s.tsu.freq + s.tsu.residue
    ∧ t.tsu.residue < 10000000
    ∧ (s.tsu.hold = none → s.tsu.frac + adv < 1000000000000 →
        t.tsu = { s.tsu with residue := t.tsu.residue, frac := s.tsu.frac + adv })
    ∧ (s.tsu.hold = none → 1000000000000 ≤ s.tsu.frac + adv →
        t.tsu = { s.tsu with
          residue := t.tsu.residue
          frac := 999999999999
          due := some (s.tsu.frac + adv - 1000000000000) })
    ∧ (∀ h, s.tsu.hold = some h →
        t.tsu = { s.tsu with
          residue := t.tsu.residue
          hold := some ⟨h.length, h.run + adv⟩ })
    ∧ (∀ d : DividerId, t.cap.div[d] =
        { s.cap.div[d] with timer := s.cap.div[d].timer.map fun x => x - adv })
    ∧ (∀ (a : AuxId) (m : DelayMeas) (w : ReturnWindow), s.ptu.meas[a] = some m →
        m.window = some w →
        t.ptu.meas[a] = some { m with window := some { w with timer := w.timer - adv } })
    ∧ (∀ a : AuxId, (∀ m, s.ptu.meas[a] = some m → m.window = none) →
        t.ptu.meas[a] = s.ptu.meas[a])
    ∧ t.cap.pps = s.cap.pps ∧ t.cap.lineOk = s.cap.lineOk ∧ t.ptu.ports = s.ptu.ports
    ∧ t.ptu.squelched = s.ptu.squelched ∧ t.ptu.delayFailed = s.ptu.delayFailed
    ∧ KeepsAllBut [.tsu, .cap, .ptu] s t

/-- SECOND_BOUNDARY: label, REPEAT, time-set flag and leap schedule by the tables of R6 and R7, the
conditions of R17 handed, WARM-UP going absent at the boundary that brings the count to 0 among them
(log entry 37). -/
def Obligations.BoundarySettlesTheLabel : Prop :=
  ∀ (s : State) (x : Nat), s.tsu.due = some x → ∃ t, exec .secondBoundary s = .next t
    ∧ (s.tsu.setTime = none → s.tsu.leap = none →
        t.tsu.label = s.tsu.label + 1 ∧ t.tsu.repeated = false ∧ t.tsu.leap = none)
    ∧ (∀ l, s.tsu.setTime = none → s.tsu.leap = some l → l.target = s.tsu.label →
        l.kind = .insert →
        t.tsu.label = s.tsu.label ∧ t.tsu.repeated = true ∧ t.tsu.leap = none)
    ∧ (∀ l, s.tsu.setTime = none → s.tsu.leap = some l → l.target = s.tsu.label →
        l.kind = .delete →
        t.tsu.label = s.tsu.label + 2 ∧ t.tsu.repeated = false ∧ t.tsu.leap = none)
    ∧ (∀ l, s.tsu.setTime = none → s.tsu.leap = some l → l.target.toNat < s.tsu.label.toNat →
        t.tsu.label = s.tsu.label + 1 ∧ t.tsu.repeated = false ∧ t.tsu.leap = none)
    ∧ (∀ l, s.tsu.setTime = none → s.tsu.leap = some l → s.tsu.label.toNat < l.target.toNat →
        t.tsu.label = s.tsu.label + 1 ∧ t.tsu.repeated = false ∧ t.tsu.leap = some l)
    ∧ (∀ p, s.tsu.setTime = some p →
        t.tsu.label = p.label ∧ t.tsu.repeated = false
        ∧ (s.tsu.leap = none → t.tsu.leap = none)
        ∧ (∀ l, s.tsu.leap = some l →
            (s.tsu.label.toNat + 1 < l.target.toNat ∧ l.target.toNat < p.label.toNat
              ∨ l.target.toNat + 1 < p.label.toNat → t.tsu.leap = none)
            ∧ (¬(s.tsu.label.toNat + 1 < l.target.toNat ∧ l.target.toNat < p.label.toNat)
              → p.label.toNat ≤ l.target.toNat + 1 → t.tsu.leap = some l)))
    ∧ t.tsu.setTime = none ∧ t.tsu.timeSet = (s.tsu.timeSet || s.tsu.setTime.isSome)
    ∧ t.wires.conds = s.wires.conds
        ++ (if s.tsu.timeSet = false ∧ s.tsu.setTime ≠ none then [⟨13, false⟩] else [])
        ++ (if s.tsu.leap ≠ none ∧ t.tsu.leap = none then [⟨16, false⟩] else [])
        ++ (if s.tsu.warmCount = 1 then [⟨12, false⟩] else [])
    ∧ KeepsAllBut [.tsu, .cap, .ptu, .xu, .wires] s t

/-- SECOND_BOUNDARY: where the new second starts by the pending step and the overshoot x (R5, R10),
the step entered in the log while a divider runs (R13), the warm-up count and its end (R16), F and
the straps as they were, and the ports as they were unless a positive step resumes them (R128).
STEP_LOG_DROP (R14): a step that meets a log of four entries, each still needed, drops the oldest and
ends the chains that need it; a boundary without a step, with a shorter log, or with one of four entries
not needed, ends no chain and keeps every entry that an open chain needs. The number of the second, the
label it follows, its step and the fraction it skips to are the model's record of R5 and R10 for the
rules that read them later (R24, R47, R124, R128, R143); this, how an entry's place is told, and that an
entry also stands for a divider that has its boundary still to take, with no interval open, are the
model's (log entry 7). -/
def Obligations.BoundaryStartsTheSecond : Prop :=
  ∀ (s : State) (x : Nat), s.tsu.due = some x → ∃ t, exec .secondBoundary s = .next t
    ∧ (s.tsu.step = none → x < 1000000000000 →
        t.tsu.frac = x ∧ t.tsu.due = none ∧ t.tsu.hold = none)
    ∧ (∀ p, s.tsu.step = some p → 0 ≤ p.value → p.value + x < 1000000000000 →
        (t.tsu.frac : Int) = p.value + x ∧ t.tsu.due = none ∧ t.tsu.hold = none)
    ∧ (∀ p, s.tsu.step = some p → p.value < 0 →
        t.tsu.frac = 0 ∧ t.tsu.due = none ∧ t.tsu.hold = some ⟨p.value.natAbs, x⟩)
    ∧ t.tsu.step = none
    ∧ t.tsu.second = s.tsu.second + 1 ∧ t.tsu.prevLabel = s.tsu.label
    ∧ (s.tsu.step = none → t.tsu.secondStep = 0 ∧ t.tsu.skipTo = 0)
    ∧ (∀ p, s.tsu.step = some p → t.tsu.secondStep = p.value
        ∧ (0 < p.value → (t.tsu.skipTo : Int) = p.value + x)
        ∧ (p.value ≤ 0 → t.tsu.skipTo = 0))
    ∧ ((∀ p, s.tsu.step = some p → p.value ≤ 0) → t.ptu = s.ptu)
    ∧ ((∀ p, s.tsu.step = some p → p.value = 0) →
        t.tsu.stepLog = s.tsu.stepLog ∧ t.tsu.logged = s.tsu.logged)
    ∧ (∀ p, s.tsu.step = some p → p.value ≠ 0 → t.tsu.logged = s.tsu.logged + 1)
    ∧ (∀ p, s.tsu.step = some p → p.value ≠ 0 → (∃ d : DividerId, s.cap.div[d].state ≠ .idle) →
        ∃ e ∈ t.tsu.stepLog.getLast?, e.label = t.tsu.label ∧ e.step = p.value
          ∧ e.entry = t.tsu.logged)
    ∧ (∀ p e rest, s.tsu.step = some p → p.value ≠ 0 → s.tsu.stepLog = e :: rest →
        rest.length = 3 →
        (∀ l ∈ s.tsu.stepLog, Needed s l) →
        (∀ l ∈ rest, e.entry < l.entry) → e.entry ≤ s.tsu.logged →
        t.cap = { s.cap with div := t.cap.div }
        ∧ (∀ (d : DividerId) (ch : Chain), s.cap.div[d].chain = some ch → ch.note < e.entry →
            t.cap.div[d] = { s.cap.div[d] with chain := none })
        ∧ (∀ d : DividerId, (∀ ch, s.cap.div[d].chain = some ch → e.entry ≤ ch.note) →
            t.cap.div[d] = s.cap.div[d])
        ∧ e ∉ t.tsu.stepLog ∧ t.tsu.stepLog.length ≤ 4
        ∧ (∀ l ∈ rest, ∀ (d : DividerId) (ch : Chain), t.cap.div[d].chain = some ch →
            ch.note < l.entry → l ∈ t.tsu.stepLog))
    ∧ (s.tsu.stepLog.length < 4 ∨ (∀ p, s.tsu.step = some p → p.value = 0)
        ∨ s.tsu.stepLog.length = 4 ∧ (∃ l ∈ s.tsu.stepLog, ¬Needed s l) →
        t.cap = s.cap
        ∧ ∀ l ∈ s.tsu.stepLog, ∀ (d : DividerId) (ch : Chain), s.cap.div[d].chain = some ch →
            ch.note < l.entry → l ∈ t.tsu.stepLog)
    ∧ (s.tsu.warmCount = 0 → t.tsu.warmCount = 0 ∧ t.wires.warmEnd = s.wires.warmEnd)
    ∧ (0 < s.tsu.warmCount → t.tsu.warmCount + 1 = s.tsu.warmCount
        ∧ t.wires.warmEnd = (s.wires.warmEnd || decide (s.tsu.warmCount = 1)))
    ∧ t.tsu.freq = s.tsu.freq ∧ t.tsu.residue = s.tsu.residue
    ∧ t.tsu.warmStrap = s.tsu.warmStrap ∧ t.tsu.startStrap = s.tsu.startStrap
    ∧ KeepsAllBut [.tsu, .cap, .ptu, .xu, .wires] s t

/-- SECOND_BOUNDARY: the settled attributes of the new second reach every block that takes the
boundary, behind those it has still to take (R5), and nothing else is handed but the conditions and the
warm-up end. With them go the number of the second, the label that ended and whether a SET-TIME was
applied, which R21, R47 and R124 ask for. The queues (log entry 1), the number of the second (log entry
7) and the label that ended (log entry 5) are the model's. -/
def Obligations.BoundaryReachesEveryBlock : Prop :=
  ∀ (s : State) (x : Nat), s.tsu.due = some x → ∃ t b, exec .secondBoundary s = .next t
    ∧ b.label = t.tsu.label ∧ b.repeated = t.tsu.repeated ∧ b.timeSet = t.tsu.timeSet
    ∧ b.leap = t.tsu.leap.map (·.kind) ∧ b.warmUp = decide (0 < s.tsu.warmCount)
    ∧ b.second = t.tsu.second ∧ b.endedLabel = s.tsu.label
    ∧ b.setTime = s.tsu.setTime.isSome
    ∧ (s.tsu.step = none → b.step = none)
    ∧ (∀ v slot, s.tsu.step = some (.host v slot) → b.step = some (v, .host))
    ∧ (∀ v, s.tsu.step = some (.loop v) → b.step = some (v, .loop))
    ∧ (∀ c : PpsChannelId, t.wires.ppsBnd[c] = s.wires.ppsBnd[c] ++ [b])
    ∧ (∀ d : DividerId, t.wires.divBnd[d] = s.wires.divBnd[d] ++ [b])
    ∧ t.wires = { s.wires with
        ppsBnd := t.wires.ppsBnd
        divBnd := t.wires.divBnd
        pkuBnd := s.wires.pkuBnd ++ [b]
        lpuBnd := s.wires.lpuBnd ++ [b]
        houBnd := s.wires.houBnd ++ [b]
        ptuBnd := s.wires.ptuBnd ++ [b]
        aluBnd := s.wires.aluBnd ++ [b]
        xuBnd := s.wires.xuBnd ++ [b]
        conds := t.wires.conds
        warmEnd := t.wires.warmEnd }

/-- SECOND_BOUNDARY: the parked requests that the boundary decides complete, alone or together (R6, R7,
R10, R171): a SET-TIME with the new label and, as its result, the label the boundary would have carried
without it; a leap executed, missed by its label, or missed by a SET-TIME; a HOST step. Each completion
bumps DONE once (R171), and no other slot changes. -/
def Obligations.BoundaryCompletesTheParked : Prop :=
  ∀ (s : State) (x : Nat) (byLeap new : Label), s.tsu.due = some x →
    ((∀ k n, s.tsu.leap ≠ some ⟨s.tsu.label, k, n⟩) → byLeap = s.tsu.label + 1) →
    (∀ n, s.tsu.leap = some ⟨s.tsu.label, .insert, n⟩ → byLeap = s.tsu.label) →
    (∀ n, s.tsu.leap = some ⟨s.tsu.label, .delete, n⟩ → byLeap = s.tsu.label + 2) →
    (s.tsu.setTime = none → new = byLeap) → (∀ l n, s.tsu.setTime = some ⟨l, n⟩ → new = l) →
    ∃ t, exec .secondBoundary s = .next t
    ∧ (∀ l n, s.tsu.setTime = some ⟨l, n⟩ → s.xu.slots[n].state = .taken →
        (∀ o k, s.tsu.leap ≠ some ⟨o, k, n⟩) → (∀ v, s.tsu.step ≠ some (.host v n)) →
        t.xu.slots[n] = { s.xu.slots[n] with
          code := 1
          label := new
          state := .done
          params := t.xu.slots[n].params }
        ∧ t.xu.slots[n].params.toList.take 3 = labelWords byLeap
        ∧ ∀ i : Fin 24, 3 ≤ i.val → t.xu.slots[n].params[i] = s.xu.slots[n].params[i])
    ∧ (∀ (o : Label) (k : LeapKind) (n : Slot) (missed : Prop), s.tsu.leap = some ⟨o, k, n⟩ →
        s.xu.slots[n].state = .taken → (∀ l, s.tsu.setTime ≠ some ⟨l, n⟩) →
        (∀ v, s.tsu.step ≠ some (.host v n)) →
        (missed ↔ s.tsu.setTime = none ∧ o.toNat < s.tsu.label.toNat
          ∨ ∃ l a, s.tsu.setTime = some ⟨l, a⟩
            ∧ (s.tsu.label.toNat + 1 < o.toNat ∧ o.toNat < l.toNat ∨ o.toNat + 1 < l.toNat)) →
        (s.tsu.setTime = none → o = s.tsu.label → t.xu.slots[n] =
          { s.xu.slots[n] with code := 1, label := new, state := .done })
        ∧ (missed → t.xu.slots[n] =
          { s.xu.slots[n] with code := 10, label := new, state := .done })
        ∧ (¬missed → ¬(s.tsu.setTime = none ∧ o = s.tsu.label) →
          t.xu.slots[n] = s.xu.slots[n]))
    ∧ (∀ v n, s.tsu.step = some (.host v n) → s.xu.slots[n].state = .taken →
        (∀ l, s.tsu.setTime ≠ some ⟨l, n⟩) → (∀ o k, s.tsu.leap ≠ some ⟨o, k, n⟩) →
        t.xu.slots[n] = { s.xu.slots[n] with code := 1, label := new, state := .done })
    ∧ (∀ n : Slot, (∀ l, s.tsu.setTime ≠ some ⟨l, n⟩) → (∀ o k, s.tsu.leap ≠ some ⟨o, k, n⟩) →
        (∀ v, s.tsu.step ≠ some (.host v n)) → t.xu.slots[n] = s.xu.slots[n])
    ∧ t.xu.attn[clsDone].count = s.xu.attn[clsDone].count
        + BitVec.ofNat 16 ((List.finRange 16).filter fun n =>
            decide (s.xu.slots[n].state ≠ .done ∧ t.xu.slots[n].state = .done)).length
    ∧ ChangesXu t.xu.slots s.xu.unit [] s t

/-- NEGATIVE_STEP_HOLD_END (R10): the fraction begins to advance from 0, with what the last cycle
counted beyond |s| (log entry 29). LOOP_STEP_ORDER (R12): the loop's step becomes the pending one.
LOOP_STATE_CHANGE_TSU (R11, R12): a LOOP step goes when the loop leaves or restarts ACQUIRE, a HOST
step, completed NOT-PERMITTED, when the loop leaves FREE-RUN and HOLDOVER; the completion bumps DONE once,
and one for a slot that is not TAKEN is discarded (R171). That a change still waiting
withdraws the HOST step pending as it is taken, also one accepted since, is the model's (log entry
58). -/
def Obligations.HoldEndAndLoopNotices : Prop :=
  (∀ (s : State) (h : Hold), s.tsu.hold = some h → h.length ≤ h.run →
    h.run - h.length < 1000000000000 →
    exec .negativeStepHoldEnd s = .next
      { s with tsu := { s.tsu with hold := none, frac := h.run - h.length } })
  ∧ (∀ (s : State) (v : Int) (rest : List TsuEvent), s.wires.tsuIn = .step v :: rest →
    (∀ w slot, s.tsu.step ≠ some (.host w slot)) →
    exec .loopStepOrder s = .next
      { s with
        tsu := { s.tsu with step := some (.loop v) }
        wires := { s.wires with tsuIn := rest } })
  ∧ (∀ (s : State) (before after : LoopState) (rest : List TsuEvent),
    s.wires.tsuIn = .state before after :: rest →
    ∃ t, exec .loopStateChangeTsu s = .next t
    ∧ (∀ v, s.tsu.step = some (.loop v) → before = .acquire → t.tsu = { s.tsu with step := none })
    ∧ (∀ v, s.tsu.step = some (.loop v) → before ≠ .acquire → t.tsu = s.tsu)
    ∧ (∀ v, s.tsu.step = some (.loop v) → t.xu = s.xu)
    ∧ (∀ v n, s.tsu.step = some (.host v n) → (before = .freeRun ∨ before = .holdover) →
        after ≠ .freeRun → after ≠ .holdover →
        t.tsu = { s.tsu with step := none }
        ∧ (s.xu.slots[n].state = .taken →
            ChangesXu (s.xu.slots.set n (doneSlot n 6 s.tsu.label s)) s.xu.unit [] s t
            ∧ t.xu.attn[clsDone].count = s.xu.attn[clsDone].count + 1
            ∧ t.xu.attn[clsDone].pending = true)
        ∧ (s.xu.slots[n].state ≠ .taken → t.xu = s.xu))
    ∧ (∀ v n, s.tsu.step = some (.host v n) →
        (before ≠ .freeRun ∧ before ≠ .holdover) ∨ after = .freeRun ∨ after = .holdover →
        t.tsu = s.tsu ∧ t.xu = s.xu)
    ∧ (s.tsu.step = none → t.tsu = s.tsu ∧ t.xu = s.xu)
    ∧ t.wires = { s.wires with tsuIn := rest } ∧ KeepsAllBut [.tsu, .xu, .wires] s t)

/-- WARM_UP_END (R16, R71, R73, R76, R77, R82): the loop's warm-up hold is cleared and the QSU runs
its review, which selects the best candidate, or a forced one, those that qualified before it in the same
moment included; FORCE-INEFFECTIVE is settled, a change of selection told. WARM-UP itself went absent at
the boundary (R17, log entry 37). That the loop has its boundary first (log entry 9), and that a review
before this one still selects nothing (log entry 46), are the model's. -/
def Obligations.WarmUpEndSelects : Prop :=
  ∀ s : State, s.wires.warmEnd = true → s.wires.lpuBnd = [] →
    ∃ t, exec .warmUpEnd s = .next t
    ∧ t.lpu = { s.lpu with warmHold := false }
    ∧ Reviewed (0 < s.tsu.warmCount) s.qsu t.qsu.selected
    ∧ (s.tsu.warmCount = 0 → s.qsu.forced = none → s.qsu.forcedHoldover = false →
        s.qsu.selected = none → Best s.qsu t.qsu.selected)
    ∧ (∀ r, s.tsu.warmCount = 0 → s.qsu.forcedHoldover = false → s.qsu.forced = some r →
        Candidate s.qsu r → t.qsu.selected = some r)
    ∧ (t.qsu.forceIneffective = true ↔ s.qsu.forced ≠ none ∧ s.qsu.forced ≠ t.qsu.selected)
    ∧ t.qsu = { s.qsu with
        selected := t.qsu.selected
        forceIneffective := t.qsu.forceIneffective }
    ∧ (∀ r, s.qsu.selected = none → t.qsu.selected = some r →
        t.wires.loopIn = s.wires.loopIn ++ [.selection none (some r) false])
    ∧ SelectionTold false s t ∧ ChangesXu s.xu.slots s.xu.unit [] s t
    ∧ t.wires = { s.wires with
        warmEnd := false
        loopIn := t.wires.loopIn
        conds := s.wires.conds ++ (if t.qsu.forceIneffective = s.qsu.forceIneffective then []
          else [⟨15, t.qsu.forceIneffective⟩]) }
    ∧ KeepsAllBut [.qsu, .lpu, .xu, .wires] s t

/-! ### Reference inputs -/

/-- PPS edges (R21, R23): in an open window the first leading edge and the trailing edge after it are
kept, later leading edges counted to 15; each stamp lies on the 125 ps grid, at fraction 0 and marked
held in a hold; without a window both edges are ignored. PPS_CHANNEL_BOUNDARY (R22, R24): the first
boundary after a window's opening is the window's. -/
def Obligations.PpsWindowsRecord : Prop :=
  (∀ (s : State) (c : PpsChannelId), s.wires.ppsBnd[c] = [] →
    (∀ (r : CaptureRecord) (st : Stamp), s.cap.pps[c].window = .opened r →
      st = ⟨⟨s.tsu.label, if s.tsu.hold = none then s.tsu.frac / 125 * 125 else 0⟩,
        decide (s.tsu.hold ≠ none), decide (r.bnd ≠ none)⟩ →
      exec (.ppsLeadingEdge c) s = .next { s with cap := { s.cap with
        pps := s.cap.pps.set c { s.cap.pps[c] with
          window := .opened
            (if r.first = none then { r with first := some st, count := 1 }
             else { r with count := min (r.count + 1) 15 }) } } }
      ∧ exec (.ppsTrailingEdge c) s = .next { s with cap := { s.cap with
        pps := s.cap.pps.set c { s.cap.pps[c] with
          window := .opened
            (if r.first ≠ none ∧ r.trail = none then { r with trail := some st } else r) } } })
    ∧ ((∀ r, s.cap.pps[c].window ≠ .opened r) →
      exec (.ppsLeadingEdge c) s = .next s ∧ exec (.ppsTrailingEdge c) s = .next s))
  ∧ (∀ (s : State) (c : PpsChannelId) (b : Boundary) (rest : List Boundary),
    s.wires.ppsBnd[c] = b :: rest →
    (∀ r : CaptureRecord, s.cap.pps[c].window = .opened r → r.bnd = none →
      exec (.ppsChannelBoundary c) s = .next
        { s with
          cap := { s.cap with
          pps := s.cap.pps.set c
            { s.cap.pps[c] with window := .opened { r with bnd := some b } } }
          wires := { s.wires with ppsBnd := s.wires.ppsBnd.set c rest } })
    ∧ (s.cap.pps[c].window = .idle →
      exec (.ppsChannelBoundary c) s = .next
        { s with wires := { s.wires with ppsBnd := s.wires.ppsBnd.set c rest } }))

/-- WINDOW_CLOSE (R22, R24, R25, R26, R35, R36): offsets from the window's boundary, the first check
that applies, e = −c + C, Δ between two CLEAN windows only, with the step taken back out, the measurement
handed and the next window opened; a channel that waited opens its first window. -/
def Obligations.WindowCloseMeasures : Prop :=
  ∀ (s : State) (c : PpsChannelId), s.tsu.hold = none → 500000000000 ≤ s.tsu.frac →
    (∀ (first trail : Option Stamp) (count : Nat) (b : Boundary) (v : Int) (off : Stamp → Int),
      s.cap.pps[c].window = .opened ⟨first, trail, count, some b⟩ → b.second = s.tsu.second →
      v = (b.step.map (·.1)).getD 0 →
      (∀ st : Stamp, off st =
        if st.after then (st.at_.ps : Int) else (st.at_.ps : Int) - 1000000000000 + v) →
      ∃ t m, exec (.windowClose c) s = .next t
      ∧ t.wires = { s.wires with arrivals := s.wires.arrivals ++ [m] }
      ∧ m.ref = ppsRef c ∧ m.label = b.label ∧ m.repeated = some b.repeated
      ∧ (first = none → m.outcome = .missing ∧ m.e = none)
      ∧ (first ≠ none → 2 ≤ count → m.outcome = .spurious)
      ∧ (first ≠ none → count < 2 → trail = none → m.outcome = .width)
      ∧ (∀ f z, first = some f → trail = some z → count < 2 →
          m.width = some (off z - off f)
          ∧ m.outcome = if off z - off f < s.qsu.refs[ppsRef c].cfg.wMin
              ∨ s.qsu.refs[ppsRef c].cfg.wMax < off z - off f then .width else .clean)
      ∧ (∀ f, first = some f → m.e = some (-(off f) + s.qsu.refs[ppsRef c].cfg.compensation))
      ∧ (∀ p e before, s.cap.pps[c].prev = some p → p.clean = true → p.e = some before →
          m.outcome = .clean → m.e = some e → m.delta = some (e - before + v))
      ∧ (m.outcome ≠ .clean ∨ s.cap.pps[c].prev = none
          ∨ (∃ e, s.cap.pps[c].prev = some ⟨e, false⟩) → m.delta = none)
      ∧ t.cap = { s.cap with
          pps := s.cap.pps.set c
            ⟨.opened ⟨none, none, 0, none⟩, some ⟨m.e, decide (m.outcome = .clean)⟩,
              first.map off, count, m.width⟩ }
      ∧ KeepsAllBut [.cap, .wires] s t)
    ∧ (s.cap.pps[c].window = .waiting s.tsu.second → s.wires.ppsBnd[c] = [] →
      exec (.windowClose c) s = .next { s with cap := { s.cap with
          pps := s.cap.pps.set c
            { s.cap.pps[c] with window := .opened ⟨none, none, 0, none⟩ } } })

/-- DIVIDER_EDGE (R28): an IDLE divider ignores edges; in LOADING the first edge starts the count at
1, or at 0 where the modulus is 1; in COUNTING each edge counts. DIVIDER_BOUNDARY (R29): an open
chain counts each boundary. LINE_OK_CHANGE_CAPTURE (R33): the level is kept, and going inactive ends
the divider's chain. After a boundary or the end of a chain the step log holds exactly the entries that an
open interval still needs (R13). That it also holds those of a divider which has its boundary still to take
(log entry 7), that edges count on past the modulus while the marker is due (log entry 32), and that a level
the pin already has is no change (log entry 11), are the model's. -/
def Obligations.DividersCountAndLoseTheLine : Prop :=
  (∀ (s : State) (d : DividerId),
    (s.cap.div[d].state = .idle → exec (.dividerEdge d) s = .next s)
    ∧ (s.cap.div[d].state = .loading → exec (.dividerEdge d) s = .next
        { s with cap := { s.cap with div := s.cap.div.set d { s.cap.div[d] with
            state := .counting
            count := if s.qsu.refs[divRef d].cfg.nominal = 1 then 0 else 1 } } })
    ∧ (s.cap.div[d].state = .counting → exec (.dividerEdge d) s = .next
        { s with cap := { s.cap with
            div := s.cap.div.set d { s.cap.div[d] with count := s.cap.div[d].count + 1 } } })
    ∧ (∀ b rest, s.wires.divBnd[d] = b :: rest → ∃ t, exec (.dividerBoundary d) s = .next t
        ∧ (∀ ch, s.cap.div[d].chain = some ch → t.cap = { s.cap with
          div := s.cap.div.set d
            { s.cap.div[d] with chain := some { ch with boundaries := ch.boundaries + 1 } } })
        ∧ (s.cap.div[d].chain = none → t.cap = s.cap)
        ∧ t.wires = { s.wires with divBnd := s.wires.divBnd.set d rest }
        ∧ LogPruned s t ∧ KeepsAllBut [.tsu, .cap, .wires] s t))
  ∧ (∀ (s : State) (l : LineId),
    (s.cap.lineOk[l] = true → ∃ t, exec (.lineOkChangeCapture l false) s = .next t
      ∧ t.cap = { s.cap with
          lineOk := s.cap.lineOk.set l false
          div := s.cap.div.set (lineDiv l) { s.cap.div[lineDiv l] with chain := none } }
      ∧ LogPruned s t ∧ KeepsAllBut [.tsu, .cap] s t)
    ∧ (s.cap.lineOk[l] = false → exec (.lineOkChangeCapture l true) s = .next
      { s with cap := { s.cap with lineOk := s.cap.lineOk.set l true } })
    ∧ exec (.lineOkChangeCapture l s.cap.lineOk[l]) s = .next s)

/-- MARKER (R28, R29, R30, R31, R32, R33, R35): the count starts again; with LINE-x-OK inactive that is
all. Else the timer is re-armed, the interval in span seconds less the logged steps gives Δ and the
gross check, and the marker opens the next interval; a held marker ends the chain. The step log then holds
exactly the entries that an open interval still needs (R13). How the model tells the log entries of an
interval, and that the log also holds those of a divider which has its boundary still to take (log entry 7),
and that edges counted past the modulus stay in the count (log entry 32), are its own. -/
def Obligations.MarkerMeasures : Prop :=
  ∀ (s : State) (d : DividerId) (v : Divider), v = s.cap.div[d] → v.state = .counting →
    s.qsu.refs[divRef d].cfg.nominal ≤ v.count →
    (∀ l : LineId, d = lineDiv l → s.cap.lineOk[l] = false → exec (.marker d) s = .next
      { s with cap := { s.cap with
        div := s.cap.div.set d { v with count := v.count - s.qsu.refs[divRef d].cfg.nominal } } })
    ∧ ((∀ l : LineId, d = lineDiv l → s.cap.lineOk[l] = true) → s.wires.divBnd[d] = [] →
    ∃ t, exec (.marker d) s = .next t
    ∧ (∀ ch i, v.chain = some ch → s.tsu.hold = none →
        i = (ch.boundaries : Int) * 1000000000000 + ((s.tsu.frac / 125 * 125 : Nat) : Int)
          - ch.opening.ps
          - ((s.tsu.stepLog.filter fun e => ch.note < e.entry && e.entry ≤ s.tsu.logged).map
              (·.step)).sum →
        (∃ m, t.wires = { s.wires with arrivals := s.wires.arrivals ++ [m] }
          ∧ m.ref = divRef d ∧ m.label = s.tsu.label ∧ m.e = none ∧ m.interval = some i
          ∧ m.delta = some ((ch.span : Int) * 1000000000000 - i) ∧ m.span = some ch.span
          ∧ m.newChain = ch.fresh
          ∧ m.outcome = if ch.span * s.qsu.refs[divRef d].cfg.gross
              < ((ch.span : Int) * 1000000000000 - i).natAbs then .range else .clean)
        ∧ t.cap = { s.cap with
          div := s.cap.div.set d
            ⟨.counting, v.count - s.qsu.refs[divRef d].cfg.nominal,
              some ⟨⟨s.tsu.label, s.tsu.frac / 125 * 125⟩, 0, 1, s.tsu.logged, false⟩,
              some 1500000000000, some i, some ch.span⟩ })
    ∧ (v.chain = none → s.tsu.hold = none → t.wires = s.wires
        ∧ t.cap = { s.cap with
          div := s.cap.div.set d
            { v with
              count := v.count - s.qsu.refs[divRef d].cfg.nominal
              chain := some ⟨⟨s.tsu.label, s.tsu.frac / 125 * 125⟩, 0, 1, s.tsu.logged, true⟩
              timer := some 1500000000000 } })
    ∧ (s.tsu.hold ≠ none → t.wires = s.wires
        ∧ t.cap = { s.cap with
          div := s.cap.div.set d
            { v with
              count := v.count - s.qsu.refs[divRef d].cfg.nominal
              chain := none
              timer := some 1500000000000 } })
    ∧ LogPruned s t ∧ KeepsAllBut [.tsu, .cap, .wires] s t)

/-- MISSING_TIMER_EXPIRY (R31, R32, R35): MISSING is handed, the timer re-armed, the span raised by 1
and the chain ended at the fourth. The step log then holds exactly the entries that an open interval still
needs (R13); that it also holds those of a divider which has its boundary still to take is the model's (log
entry 7). -/
def Obligations.MissingTimerExpires : Prop :=
  ∀ (s : State) (d : DividerId) (v : Divider), v = s.cap.div[d] → v.timer = some 0 →
    s.wires.divBnd[d] = [] →
    ∃ t m, exec (.missingTimerExpiry d) s = .next t
    ∧ t.wires = { s.wires with arrivals := s.wires.arrivals ++ [m] }
    ∧ m.ref = divRef d ∧ m.label = s.tsu.label ∧ m.outcome = .missing ∧ m.e = none
    ∧ m.delta = none ∧ m.span = none ∧ m.newChain = false
    ∧ (∀ ch, v.chain = some ch → ch.span < 4 → t.cap = { s.cap with
          div := s.cap.div.set d
            ⟨v.state, v.count, some { ch with span := ch.span + 1 }, some 1500000000000, none, none⟩ })
    ∧ ((∀ ch, v.chain = some ch → 4 ≤ ch.span) → t.cap = { s.cap with
          div := s.cap.div.set d
            ⟨v.state, v.count, none, some 1500000000000, none, none⟩ })
    ∧ LogPruned s t ∧ KeepsAllBut [.tsu, .cap, .wires] s t

/-! ### Packet references -/

/-- SAMPLE_READY (R40 to R46): the verdict is the first reason of R42 and R43 that applies, ACCEPTED
where none does; it is written with the take label, the slot returned EMPTY, the window or the
rejected count updated, BOARD bumped, the latch released. A reference index other than 6 and 7 is
BAD-REF and counted nowhere. A READY slot discards the write. That a label difference of exactly 2⁴⁷
reads as −2⁴⁷ is the model's (log entry 43). -/
def Obligations.SampleIsJudged : Prop :=
  (∀ (s : State) (n : SampleSlot) (q : Sample) (k : PacketId) (t1 t2 t3 t4 now : Instant),
    q = s.pku.board[n] → s.wires.pkuBnd = [] → q.ref = BitVec.ofNat 16 (6 + k.val) →
    t1 = q.instant 0 → t2 = q.instant 6 → t3 = q.instant 12 → t4 = q.instant 18 →
    now = ⟨s.tsu.label, if s.tsu.hold = none then s.tsu.frac else 0⟩ →
    (q.state = .ready →
      exec (.sampleReady n) s = .next { s with xu := { s.xu with latch := none } })
    ∧ (q.state = .empty → ∃ t v, exec (.sampleReady n) s = .next t
      ∧ t.pku.board = s.pku.board.set n { q with verdict := v, takeLabel := s.tsu.label }
      ∧ (s.qsu.refs[pktRef k].cfg.enabled = false → v = .badRef)
      ∧ (∀ badField order range negative stale future duplicate : Prop,
          (badField ↔ 1000000000000 ≤ t1.ps ∨ 1000000000000 ≤ t2.ps ∨ 1000000000000 ≤ t3.ps
            ∨ 1000000000000 ≤ t4.ps) →
          (order ↔ 0 < instDiff t2 t3) →
          (range ↔ 1000000000000 < (instDiff t2 t1).natAbs
            ∨ 1000000000000 < (instDiff t4 t3).natAbs) →
          (negative ↔ instDiff t2 t1 + instDiff t4 t3 < 0) →
          (stale ↔ 4000000000000 < instDiff now t2
            ∨ ∃ l, s.pku.stepMark = some l ∧ 0 < instDiff ⟨l, 0⟩ t2) →
          (future ↔ 0 < instDiff t2 now) →
          (duplicate ↔ ∃ w ∈ s.pku.refs[k].window,
            w.t1 = t1 ∧ w.t2 = t2 ∧ w.t3 = t3 ∧ w.t4 = t4) →
          s.qsu.refs[pktRef k].cfg.enabled = true →
          (badField → v = .badField)
          ∧ (¬badField → order → v = .order)
          ∧ (¬badField → ¬order → range → v = .range)
          ∧ (¬badField → ¬order → ¬range → negative → v = .negative)
          ∧ (¬badField → ¬order → ¬range → ¬negative → stale → v = .stale)
          ∧ (¬badField → ¬order → ¬range → ¬negative → ¬stale → future → v = .future)
          ∧ (¬badField → ¬order → ¬range → ¬negative → ¬stale → ¬future → duplicate →
              v = .duplicate)
          ∧ (¬badField → ¬order → ¬range → ¬negative → ¬stale → ¬future → ¬duplicate →
              v = .accepted))
      ∧ (v = .accepted → t.pku.refs = s.pku.refs.set k
          { s.pku.refs[k] with
            window := s.pku.refs[k].window.drop (s.pku.refs[k].window.length - 15)
              ++ [⟨t1, t2, t3, t4, (instDiff t2 t1 - instDiff t4 t3) / 2,
                instDiff t2 t1 + instDiff t4 t3, s.tsu.label, false, false⟩]
            accepted := min (s.pku.refs[k].accepted + 1) 65535 })
      ∧ (v ≠ .accepted → t.pku.refs = s.pku.refs.set k
          { s.pku.refs[k] with rejected := min (s.pku.refs[k].rejected + 1) 65535 })
      ∧ t.pku = { s.pku with board := t.pku.board, refs := t.pku.refs }
      ∧ t.xu = { s.xu with latch := none, attn := t.xu.attn, inta := t.xu.inta, intb := t.xu.intb }
      ∧ AttnBumped [clsBoard] s t
      ∧ t.xu.attn[clsBoard].count = s.xu.attn[clsBoard].count + 1
      ∧ t.xu.attn[clsBoard].pending = true ∧ KeepsAllBut [.pku, .xu] s t))
  ∧ (∀ (s : State) (n : SampleSlot) (q : Sample), q = s.pku.board[n] → s.wires.pkuBnd = [] →
    q.ref ≠ 6 → q.ref ≠ 7 → q.state = .empty → ∃ t, exec (.sampleReady n) s = .next t
    ∧ t.pku = { s.pku with
        board := s.pku.board.set n { q with verdict := .badRef, takeLabel := s.tsu.label } }
    ∧ t.xu = { s.xu with latch := none, attn := t.xu.attn, inta := t.xu.inta, intb := t.xu.intb }
    ∧ AttnBumped [clsBoard] s t
    ∧ t.xu.attn[clsBoard].count = s.xu.attn[clsBoard].count + 1
    ∧ t.xu.attn[clsBoard].pending = true ∧ KeepsAllBut [.pku, .xu] s t)

/-- PACKET_EVALUATION (R45, R47 to R50, R54): an enabled reference's window gives the in-span sample of
least round trip, the newest among equals; its measurement, Δ with it where this evaluation and the one
before are CLEAN, is handed in index order, and the window keeps the in-span and chosen marks; counts
turn, and the step mark and windows follow the boundary's step or SET-TIME. A SET-TIME beside a step of
0 sets the mark to none, and an evaluation that finds no entry in span leaves no last chosen sample, by
the model's choice (log entries 44 and 48). -/
def Obligations.PacketEvaluationPicksLeastDelay : Prop :=
  ∀ (s : State) (b : Boundary) (rest : List Boundary) (o : Label) (v : Int)
    (ins : PacketId → WindowEntry → Bool) (marked : PacketId → WindowEntry → WindowEntry),
    s.wires.pkuBnd = b :: rest → o = s.pku.label → v = (b.step.map (·.1)).getD 0 →
    (∀ (k : PacketId) (x : WindowEntry), ins k x = true ↔
      instDiff x.t2 ⟨o, 0⟩ < 1000000000000
      ∧ -(((s.qsu.refs[pktRef k].cfg.span : Int) - 1) * 1000000000000) ≤ instDiff x.t2 ⟨o, 0⟩) →
    (∀ k x, marked k x = { x with inSpan := ins k x, chosen := false }) →
    ∃ t ms, exec .packetEvaluation s = .next t
    ∧ t.wires = { s.wires with pkuBnd := rest, arrivals := s.wires.arrivals ++ ms }
    ∧ ms.map (·.ref) = [6, 7].filter (fun r : Ref => s.qsu.refs[r].cfg.enabled)
    ∧ (∀ (k : PacketId) (p : PacketRef), p = s.pku.refs[k] → ∀ m ∈ ms, m.ref = pktRef k →
        m.label = o ∧ m.repeated = some s.pku.repeated
        ∧ m.inSpan = (p.window.filter (ins k)).length ∧ t.pku.refs[k].lastInSpan = m.inSpan
        ∧ m.accepted = p.accepted ∧ m.rejected = p.rejected
        ∧ ((∀ x ∈ p.window, ins k x = false) →
            m.outcome = .missing ∧ m.e = none ∧ m.minDelay = none
            ∧ t.pku.refs[k].lastChosen = none
            ∧ (v = 0 → t.pku.refs[k].window = p.window.map (marked k)))
        ∧ (∀ older c newer, p.window = older ++ c :: newer → ins k c = true →
            (∀ x ∈ older, ins k x = true → c.d ≤ x.d) →
            (∀ x ∈ newer, ins k x = true → c.d < x.d) →
            m.e = some (-c.o + s.qsu.refs[pktRef k].cfg.compensation - v)
            ∧ m.minDelay = some c.d
            ∧ (m.outcome = if c.d ≤ s.qsu.refs[pktRef k].cfg.delayLimit then .clean else .delay)
            ∧ t.pku.refs[k].lastChosen = some ⟨c.t2, c.o, c.d⟩
            ∧ (v = 0 → t.pku.refs[k].window = older.map (marked k)
                ++ { c with inSpan := true, chosen := true } :: newer.map (marked k)))
        ∧ (∀ e before, p.prev = some ⟨some before, true⟩ → m.outcome = .clean → m.e = some e →
            m.delta = some (e - before + v))
        ∧ (m.outcome ≠ .clean ∨ p.prev = none ∨ (∃ e, p.prev = some ⟨e, false⟩) →
            m.delta = none)
        ∧ t.pku.refs[k].prev = some ⟨m.e, decide (m.outcome = .clean)⟩)
    ∧ (∀ k : PacketId, s.qsu.refs[pktRef k].cfg.enabled = false →
        t.pku.refs[k] = { s.pku.refs[k] with
          window := t.pku.refs[k].window
          accepted := 0
          rejected := 0
          lastAccepted := s.pku.refs[k].accepted
          lastRejected := s.pku.refs[k].rejected }
        ∧ (v = 0 → t.pku.refs[k].window = s.pku.refs[k].window))
    ∧ (∀ k : PacketId, t.pku.refs[k].accepted = 0 ∧ t.pku.refs[k].rejected = 0
        ∧ t.pku.refs[k].lastAccepted = s.pku.refs[k].accepted
        ∧ t.pku.refs[k].lastRejected = s.pku.refs[k].rejected
        ∧ (v ≠ 0 → t.pku.refs[k].window = [])
        ∧ (v = 0 → t.pku.refs[k].window.length = s.pku.refs[k].window.length))
    ∧ (v ≠ 0 → t.pku.stepMark = some b.label)
    ∧ (v = 0 → t.pku.stepMark = if b.setTime = true then none else s.pku.stepMark)
    ∧ t.pku.label = b.label ∧ t.pku.repeated = b.repeated ∧ t.pku.board = s.pku.board
    ∧ KeepsAllBut [.pku, .wires] s t

/-! ### Qualification and selection -/

/-- MEASUREMENT_ARRIVAL: the judged outcome by the table of R60, recorded with the measurement
(R61), its REPEAT flag clear where it carries none; an arrival of a DISABLED reference is discarded. -/
def Obligations.ArrivalsAreJudged : Prop :=
  ∀ (s : State) (m : RawMeas) (rest : List RawMeas) (cfg : RefConfig) (phase : Prop),
    s.wires.arrivals = m :: rest → cfg = s.qsu.refs[m.ref].cfg →
    (phase ↔ refKind m.ref = .pps ∨ refKind m.ref = .pkt) →
    (s.qsu.refs[m.ref].state = .disabled → exec (.measurementArrival m.ref) s = .next
      { s with wires := { s.wires with arrivals := rest } })
    ∧ (s.qsu.refs[m.ref].state ≠ .disabled → ∃ t l, exec (.measurementArrival m.ref) s = .next t
      ∧ t.qsu.refs[m.ref].last = some l ∧ l.label = m.label ∧ l.raw = m.outcome ∧ l.e = m.e
      ∧ (m.repeated = none → l.repeated = false)
      ∧ (∀ v, m.repeated = some v → l.repeated = v)
      ∧ l.delta = m.delta ∧ l.span = m.span ∧ l.newChain = m.newChain ∧ l.minDelay = m.minDelay
      ∧ (m.outcome = .missing → l.judged = some .missing)
      ∧ (m.outcome = .spurious → l.judged = some .spurious)
      ∧ (m.outcome = .width → l.judged = some .width)
      ∧ (m.outcome = .range → l.judged = some .range)
      ∧ (m.outcome = .delay → l.judged = some .delay)
      ∧ (m.outcome = .clean → ∀ freqBad phaseBad : Prop,
          (freqBad ↔ ∃ x, m.delta = some x ∧
            ((phase ∧ cfg.freqTol < x.natAbs)
              ∨ (¬phase ∧ m.span.getD 1 * cfg.freqTol < x.natAbs))) →
          (phaseBad ↔ phase ∧ s.qsu.selected ≠ some m.ref ∧ s.lpu.state = .track
            ∧ ∃ x, m.e = some x ∧ cfg.phaseTol < x.natAbs) →
          (freqBad → l.judged = some .toleranceFreq)
          ∧ (¬freqBad → phaseBad → l.judged = some .tolerancePhase)
          ∧ (¬freqBad → ¬phaseBad → l.judged = none))
      ∧ t.wires.arrivals = rest ∧ (∀ x : Ref, x ≠ m.ref → t.qsu.refs[x] = s.qsu.refs[x])
      ∧ KeepsAllBut [.qsu, .xu, .wires] s t)

/-- MEASUREMENT_ARRIVAL in every state of its reference, for every judged outcome (that of R60) and in
every loop state (R62 to R65, R69): the last measurement and the counts; QUALIFIED at the qualify time,
with the selection review (R71, R72, R77); FAULTED with the outcome as its cause, REFERENCE-FAULT
present, and the selection moved with cause FAULT where the reference was selected; FORCE-INEFFECTIVE
settled after each review (R73); the return to QUALIFYING, REFERENCE-FAULT absent; and the notice to the
loop while the reference stays selected. That only a QUALIFIED reference is selected is R70
(StepKeepsSelectionSound). That a review after the boundary which ends the warm-up count and before
WARM_UP_END selects nothing is the model's (log entry 46). -/
def Obligations.ArrivalsMoveTheReference : Prop :=
  ∀ (s : State) (m : RawMeas) (rest : List RawMeas) (e : RefEntry),
    s.wires.arrivals = m :: rest → e = s.qsu.refs[m.ref] → e.state ≠ .disabled →
    (s.qsu.selected = some m.ref → e.state = .qualified) →
    ∃ t l, exec (.measurementArrival m.ref) s = .next t ∧ t.qsu.refs[m.ref].last = some l
    ∧ (e.state = .qualifying → l.judged = none → e.qualifyCount + 1 < e.cfg.qualifyTime →
        t.qsu = { s.qsu with
          refs := s.qsu.refs.set m.ref
            { e with last := some l, qualifyCount := e.qualifyCount + 1 } }
        ∧ t.wires = { s.wires with arrivals := rest } ∧ t.xu = s.xu)
    ∧ (e.state = .qualifying → l.judged = none → e.cfg.qualifyTime ≤ e.qualifyCount + 1 →
        t.qsu.refs = s.qsu.refs.set m.ref { e with
          last := some l
          state := .qualified
          cause := none
          qualifyCount := e.qualifyCount + 1
          badCount := 0
          dwellCount := 0 }
        ∧ ReviewRuns { s.wires with arrivals := rest } { s.qsu with refs := t.qsu.refs } false s t
        ∧ t.xu = { s.xu with attn := t.xu.attn, inta := t.xu.inta, intb := t.xu.intb })
    ∧ (∀ c, e.state = .qualifying → l.judged = some c →
        t.qsu = { s.qsu with
          refs := s.qsu.refs.set m.ref { e with
          last := some l
          state := .faulted
          cause := some c
          qualifyCount := 0
          badCount := 0
          dwellCount := 0 } }
        ∧ t.wires = { s.wires with
            arrivals := rest
            conds := s.wires.conds ++ [⟨codeRefFault m.ref, true⟩] }
        ∧ t.xu = s.xu)
    ∧ (e.state = .qualified → l.judged = none →
        t.qsu = { s.qsu with
          refs := s.qsu.refs.set m.ref { e with
          last := some l
          badCount := 0 } }
        ∧ t.wires = { s.wires with
            arrivals := rest
            loopIn := s.wires.loopIn ++ (if s.qsu.selected = some m.ref
              then [.forwarded m.ref m.label m.e m.delta m.span m.newChain] else []) }
        ∧ t.xu = s.xu)
    ∧ (∀ c, e.state = .qualified → l.judged = some c → e.badCount < e.cfg.badLimit →
        t.qsu = { s.qsu with
          refs := s.qsu.refs.set m.ref { e with
          last := some l
          badCount := e.badCount + 1 } }
        ∧ t.wires = { s.wires with
            arrivals := rest
            loopIn := s.wires.loopIn ++ (if s.qsu.selected = some m.ref
              then [.unusable m.ref m.label c] else []) }
        ∧ t.xu = s.xu)
    ∧ (∀ c, e.state = .qualified → l.judged = some c → e.cfg.badLimit ≤ e.badCount →
        t.qsu.refs = s.qsu.refs.set m.ref { e with
          last := some l
          state := .faulted
          cause := some c
          qualifyCount := 0
          badCount := 0
          dwellCount := 0 }
        ∧ t.qsu.selected ≠ some m.ref
        ∧ ReviewRuns
            { s.wires with
              arrivals := rest
              conds := s.wires.conds ++ [⟨codeRefFault m.ref, true⟩] }
            { s.qsu with refs := t.qsu.refs } (decide (s.qsu.selected = some m.ref)) s t
        ∧ t.xu = { s.xu with attn := t.xu.attn, inta := t.xu.inta, intb := t.xu.intb })
    ∧ (e.state = .faulted → e.dwellCount < e.cfg.dwell →
        t.qsu = { s.qsu with
          refs := s.qsu.refs.set m.ref { e with
          last := some l
          dwellCount := e.dwellCount + 1 } }
        ∧ t.wires = { s.wires with arrivals := rest } ∧ t.xu = s.xu)
    ∧ (∀ back : Prop, e.state = .faulted → e.cfg.dwell ≤ e.dwellCount →
        (back ↔ l.judged = none ∧ e.declaredValid = true
          ∧ ∀ x : LineId, m.ref = lineRef x → s.qsu.lineOk[x] = true) →
        t.xu = s.xu
        ∧ (back →
          t.qsu = { s.qsu with
          refs := s.qsu.refs.set m.ref { e with
            last := some l
            state := .qualifying
            cause := none
            qualifyCount := 0
            badCount := 0
            dwellCount := 0 } }
          ∧ t.wires = { s.wires with
              arrivals := rest
              conds := s.wires.conds ++ [⟨codeRefFault m.ref, false⟩] })
        ∧ (¬back →
          t.qsu = { s.qsu with
          refs := s.qsu.refs.set m.ref { e with last := some l } }
          ∧ t.wires = { s.wires with arrivals := rest }))
    ∧ t.wires.arrivals = rest ∧ KeepsAllBut [.qsu, .xu, .wires] s t

/-- Faults from outside the measurements: JUMP_VERDICT (R68) and LINE_OK_CHANGE_QSU (R67). The
selection leaves a reference that faults, by the review, with cause FAULT where it was the selected
one (R64, R71, R77), and FORCE-INEFFECTIVE is settled after it (R73); REFERENCE-FAULT goes present
(R62). That a level the pin already has is no change (log entry 11), and that a review after the boundary
which ends the warm-up count and before WARM_UP_END selects nothing (log entry 46), are the model's. -/
def Obligations.OutsideFaults : Prop :=
  (∀ (s : State) (r : Ref) (rest : List Ref), s.wires.verdicts = r :: rest →
    ∃ t, exec .jumpVerdict s = .next t ∧ t.wires.verdicts = rest
    ∧ (s.qsu.refs[r].state = .qualified →
        t.qsu.refs = s.qsu.refs.set r { s.qsu.refs[r] with
          state := .faulted
          cause := some .jump
          qualifyCount := 0
          badCount := 0
          dwellCount := 0 }
        ∧ t.qsu.selected ≠ some r
        ∧ ReviewRuns
            { s.wires with
              verdicts := rest
              conds := s.wires.conds ++ [⟨codeRefFault r, true⟩] }
            { s.qsu with refs := t.qsu.refs } (decide (s.qsu.selected = some r)) s t
        ∧ t.xu = { s.xu with attn := t.xu.attn, inta := t.xu.inta, intb := t.xu.intb })
    ∧ (s.qsu.refs[r].state ≠ .qualified → t.qsu = s.qsu ∧ t.xu = s.xu
        ∧ t.wires = { s.wires with verdicts := rest })
    ∧ KeepsAllBut [.qsu, .xu, .wires] s t)
  ∧ (∀ (s : State) (l : LineId),
    (s.qsu.lineOk[l] = true → ∃ t, exec (.lineOkChangeQsu l false) s = .next t
      ∧ t.qsu.lineOk = s.qsu.lineOk.set l false
      ∧ (s.qsu.refs[lineRef l].state ≠ .disabled →
          t.qsu.refs = s.qsu.refs.set (lineRef l) { s.qsu.refs[lineRef l] with
            state := .faulted
            cause := some .loss
            qualifyCount := 0
            badCount := 0
            dwellCount := 0 }
          ∧ ((s.qsu.selected = some (lineRef l) → s.qsu.refs[lineRef l].state = .qualified) →
              t.qsu.selected ≠ some (lineRef l))
          ∧ (s.qsu.refs[lineRef l].state = .qualified → ReviewRuns
              { s.wires with conds := s.wires.conds ++ [⟨codeRefFault (lineRef l), true⟩] }
              { s.qsu with refs := t.qsu.refs, lineOk := t.qsu.lineOk }
              (decide (s.qsu.selected = some (lineRef l))) s t
            ∧ t.xu = { s.xu with attn := t.xu.attn, inta := t.xu.inta, intb := t.xu.intb })
          ∧ (s.qsu.refs[lineRef l].state ≠ .qualified →
              t.qsu = { s.qsu with refs := t.qsu.refs, lineOk := t.qsu.lineOk }
              ∧ t.wires = { s.wires with
                  conds := s.wires.conds ++ handed (codeRefFault (lineRef l))
                    (decide (s.qsu.refs[lineRef l].state = .faulted)) true }
              ∧ t.xu = s.xu))
      ∧ (s.qsu.refs[lineRef l].state = .disabled →
          t.qsu = { s.qsu with lineOk := t.qsu.lineOk } ∧ t.wires = s.wires ∧ t.xu = s.xu)
      ∧ KeepsAllBut [.qsu, .xu, .wires] s t)
    ∧ (s.qsu.lineOk[l] = false → exec (.lineOkChangeQsu l true) s = .next
      { s with qsu := { s.qsu with lineOk := s.qsu.lineOk.set l true } })
    ∧ exec (.lineOkChangeQsu l s.qsu.lineOk[l]) s = .next s)

/-- SET-PRIORITY (R59): the priority replaced, the review run. SELECT-MODE (R73, R74): mode and forced
reference replaced, the review run. HOLDOVER-CONTROL (R75): enter sets forced holdover and deselects,
or is NOT-PERMITTED in FREE-RUN; leave clears it and runs the review; a value already held changes
nothing. The review is that of R71 and R72, its change told with cause OTHER (R77), FORCE-INEFFECTIVE
settled after it (R73). Other values complete INVALID. That a review after the boundary which ends the
warm-up count and before WARM_UP_END selects nothing is the model's (log entry 46). -/
def Obligations.SelectionRequestsRunTheReview : Prop :=
  (∀ (s : State) (n : Slot) (p : Vector Word 24), Held n 2 s → p = s.xu.slots[n].params →
    (∀ r : Ref, Params.w p 0 = BitVec.ofNat 16 r.val → Params.n1 p 1 ≤ 15 →
      ∃ t, exec .setPriority s = .next t
      ∧ t.qsu.refs = s.qsu.refs.set r
          { s.qsu.refs[r] with cfg := { s.qsu.refs[r].cfg with priority := Params.n1 p 1 } }
      ∧ ReviewRuns s.wires { s.qsu with refs := t.qsu.refs } false s t
      ∧ CompletesHeld n 1 s.tsu.label s t ∧ KeepsAllBut [.qsu, .xu, .wires] s t)
    ∧ (8 ≤ (Params.w p 0).toNat ∨ 15 < Params.n1 p 1 → ∃ t, exec .setPriority s = .next t
      ∧ CompletesHeld n 5 s.tsu.label s t ∧ KeepsAllBut [.xu] s t))
  ∧ (∀ (s : State) (n : Slot) (p : Vector Word 24), Held n 4 s → p = s.xu.slots[n].params →
    (∀ (v : Bool) (f : Option Ref), Params.w p 0 = (if v then 1 else 0) →
      Params.w p 1 = (match f with | none => 0xFFFF | some r => BitVec.ofNat 16 r.val) →
      ∃ t, exec .selectMode s = .next t
      ∧ ReviewRuns s.wires { s.qsu with revertive := v, forced := f } false s t
      ∧ CompletesHeld n 1 s.tsu.label s t ∧ KeepsAllBut [.qsu, .xu, .wires] s t)
    ∧ (1 < (Params.w p 0).toNat
        ∨ 8 ≤ (Params.w p 1).toNat ∧ (Params.w p 1).toNat < 0xFFFF →
      ∃ t, exec .selectMode s = .next t
      ∧ CompletesHeld n 5 s.tsu.label s t ∧ KeepsAllBut [.xu] s t))
  ∧ (∀ (s : State) (n : Slot) (p : Vector Word 24), Held n 5 s → p = s.xu.slots[n].params →
    ∃ t, exec .holdoverControl s = .next t
    ∧ (Params.w p 0 = 1 → s.lpu.state ≠ .freeRun → s.qsu.forcedHoldover = false →
        t.qsu.selected = none
        ∧ ReviewRuns s.wires { s.qsu with forcedHoldover := true } false s t ∧ CompletesHeld n 1 s.tsu.label s t)
    ∧ (Params.w p 0 = 1 ∧ s.lpu.state ≠ .freeRun ∧ s.qsu.forcedHoldover = true
        ∨ Params.w p 0 = 2 ∧ s.qsu.forcedHoldover = false →
        t.qsu = s.qsu ∧ t.wires = s.wires ∧ CompletesHeld n 1 s.tsu.label s t)
    ∧ (Params.w p 0 = 1 → s.lpu.state = .freeRun →
        t.qsu = s.qsu ∧ t.wires = s.wires ∧ CompletesHeld n 6 s.tsu.label s t)
    ∧ (Params.w p 0 = 2 → s.qsu.forcedHoldover = true →
        ReviewRuns s.wires { s.qsu with forcedHoldover := false } false s t ∧ CompletesHeld n 1 s.tsu.label s t)
    ∧ (Params.w p 0 ≠ 1 → Params.w p 0 ≠ 2 →
        t.qsu = s.qsu ∧ t.wires = s.wires ∧ CompletesHeld n 5 s.tsu.label s t)
    ∧ KeepsAllBut [.qsu, .xu, .wires] s t)

/-- DECLARE-REFERENCE (R66): a new value is stored, invalid faults an enabled reference with cause
DECLARED, REFERENCE-FAULT present (R62), and moves the selection from it with cause FAULT (R71, R77),
FORCE-INEFFECTIVE settled after it (R73), the value already held changes nothing; another index or value
completes INVALID. That a review after the boundary which ends the warm-up count and before WARM_UP_END
selects nothing is the model's (log entry 46). -/
def Obligations.DeclareReferenceFaults : Prop :=
  ∀ (s : State) (n : Slot) (p : Vector Word 24), Held n 3 s → p = s.xu.slots[n].params →
    (∀ (r : Ref) (v : Bool), Params.w p 0 = BitVec.ofNat 16 r.val →
      Params.w p 1 = (if v then 1 else 0) → ∃ t, exec .declareReference s = .next t
      ∧ (s.qsu.refs[r].declaredValid = v → t.qsu = s.qsu ∧ t.wires = s.wires)
      ∧ (s.qsu.refs[r].declaredValid ≠ v → v = true ∨ s.qsu.refs[r].state = .disabled →
          t.qsu = { s.qsu with
            refs := s.qsu.refs.set r { s.qsu.refs[r] with declaredValid := v } }
          ∧ t.wires = s.wires)
      ∧ (s.qsu.refs[r].declaredValid ≠ v → v = false → s.qsu.refs[r].state ≠ .disabled →
          t.qsu.refs = s.qsu.refs.set r { s.qsu.refs[r] with
            declaredValid := false
            state := .faulted
            cause := some .declared
            qualifyCount := 0
            badCount := 0
            dwellCount := 0 }
          ∧ (s.qsu.refs[r].state = .qualified → t.qsu.selected ≠ some r
            ∧ ReviewRuns
                { s.wires with conds := s.wires.conds ++ [⟨codeRefFault r, true⟩] }
                { s.qsu with refs := t.qsu.refs } (decide (s.qsu.selected = some r)) s t)
          ∧ (s.qsu.refs[r].state ≠ .qualified →
              t.qsu = { s.qsu with refs := t.qsu.refs }
              ∧ t.wires = { s.wires with
                  conds := s.wires.conds ++ handed (codeRefFault r)
                    (decide (s.qsu.refs[r].state = .faulted)) true }))
      ∧ CompletesHeld n 1 s.tsu.label s t ∧ KeepsAllBut [.qsu, .xu, .wires] s t)
    ∧ (8 ≤ (Params.w p 0).toNat ∨ 1 < (Params.w p 1).toNat →
      ∃ t, exec .declareReference s = .next t
      ∧ CompletesHeld n 5 s.tsu.label s t ∧ KeepsAllBut [.xu] s t)

/-- The fields of a CONFIGURE-REFERENCE and when they are in range, by kind, with a clamped compensation
(R25, R27, R28, R30, R51, R55, R57, R185). The request (R13, R27, R28, R52, R57, R58, R62, R73): the
fields replaced, the measuring block restarted and every other channel, divider and packet reference as
it was with the sample board, the step log losing exactly what no other divider's interval needs, the
new state with its cause and zero counts, the changes of REFERENCE-FAULT and FORCE-INEFFECTIVE handed,
the last measurement emptied, the reference no longer selected; a field or an index out of range
completes INVALID. That an enabling request waits while a measurement of its reference does (log entry
18), that the step log also holds the entries of a divider which has its boundary still to take (log
entry 7), that a divider's count is 0 (log entry 12), what the fields of another kind hold (log entry
22), and that a review after the boundary which ends the warm-up count and before WARM_UP_END selects
nothing (log entry 46) are the model's. -/
def Obligations.ConfigureReferenceRestarts : Prop :=
  (∀ (p : Vector Word 24) (r : Ref),
    (refConfigOf p r ≠ none ↔
      (Params.w p 1).toNat ≤ 1 ∧ Params.n1 p 2 ≤ 15
      ∧ (1 ≤ Params.n2 p 10 ∧ Params.n2 p 10 ≤ 100000000)
      ∧ (1 ≤ Params.n1 p 12 ∧ Params.n1 p 12 ≤ 3600) ∧ Params.n1 p 13 ≤ 3600
      ∧ Params.n1 p 14 ≤ 15
      ∧ (refKind r = .pps ∨ refKind r = .pkt → Params.n2 p 5 ≤ 100000000
          ∧ 1000 ≤ Params.n3 p 7 ∧ Params.n3 p 7 ≤ 100000000000)
      ∧ (refKind r = .pps → 125 ≤ Params.n3 p 15 ∧ Params.n3 p 15 ≤ Params.n3 p 18
          ∧ Params.n3 p 18 ≤ 999999999875)
      ∧ (refKind r = .frq → 1 ≤ Params.n2 p 15 ∧ Params.n2 p 15 ≤ 25000000)
      ∧ (refKind r = .line → 8000 ≤ Params.n2 p 15 ∧ Params.n2 p 15 ≤ 156250000)
      ∧ (refKind r = .frq ∨ refKind r = .line →
          1000 ≤ Params.n2 p 17 ∧ Params.n2 p 17 ≤ 100000000)
      ∧ (refKind r = .pkt → (1 ≤ Params.n1 p 15 ∧ Params.n1 p 15 ≤ 16)
          ∧ 1000000 ≤ Params.n3 p 16 ∧ Params.n3 p 16 ≤ 2000000000000))
    ∧ ∀ cfg clamped, refConfigOf p r = some (cfg, clamped) →
      (cfg.enabled = true ↔ Params.w p 1 = 1) ∧ cfg.priority = Params.n1 p 2
      ∧ cfg.freqTol = Params.n2 p 10 ∧ cfg.qualifyTime = Params.n1 p 12
      ∧ cfg.dwell = Params.n1 p 13 ∧ cfg.badLimit = Params.n1 p 14
      ∧ (refKind r = .pps ∨ refKind r = .pkt →
          cfg.compensation = max (-200000000) (min 200000000 (Params.i2 p 3))
          ∧ (clamped = true ↔ 200000000 < (Params.i2 p 3).natAbs)
          ∧ cfg.accuracy = Params.n2 p 5 ∧ cfg.phaseTol = Params.n3 p 7)
      ∧ (refKind r = .pps → cfg.wMin = Params.n3 p 15 ∧ cfg.wMax = Params.n3 p 18)
      ∧ (refKind r = .frq ∨ refKind r = .line →
          cfg.nominal = Params.n2 p 15 ∧ cfg.gross = Params.n2 p 17 ∧ clamped = false)
      ∧ (refKind r = .pkt → cfg.span = Params.n1 p 15 ∧ cfg.delayLimit = Params.n3 p 16))
  ∧ (∀ (s : State) (n : Slot) (p : Vector Word 24) (r : Ref), Held n 1 s →
    p = s.xu.slots[n].params → Params.w p 0 = BitVec.ofNat 16 r.val →
    (refConfigOf p r = none → ∃ t, exec .configureReference s = .next t
      ∧ CompletesHeld n 5 s.tsu.label s t ∧ KeepsAllBut [.xu] s t)
    ∧ (∀ cfg clamped, refConfigOf p r = some (cfg, clamped) → cfg.enabled = true →
      (∃ m ∈ s.wires.arrivals, m.ref = r) → exec .configureReference s = .next s)
    ∧ (∀ cfg clamped, refConfigOf p r = some (cfg, clamped) →
      (cfg.enabled = true → ∀ m ∈ s.wires.arrivals, m.ref ≠ r) →
      ∃ t x, exec .configureReference s = .next t ∧ x = t.qsu.refs[r]
      ∧ x.cfg = cfg ∧ x.declaredValid = s.qsu.refs[r].declaredValid ∧ x.last = none
      ∧ x.qualifyCount = 0 ∧ x.badCount = 0 ∧ x.dwellCount = 0
      ∧ (cfg.enabled = false → x.state = .disabled ∧ x.cause = none)
      ∧ (cfg.enabled = true → s.qsu.refs[r].declaredValid = false →
          x.state = .faulted ∧ x.cause = some .declared)
      ∧ (cfg.enabled = true → s.qsu.refs[r].declaredValid = true →
          (∃ l : LineId, r = lineRef l ∧ s.qsu.lineOk[l] = false) →
          x.state = .faulted ∧ x.cause = some .loss)
      ∧ (cfg.enabled = true → s.qsu.refs[r].declaredValid = true →
          (∀ l : LineId, r = lineRef l → s.qsu.lineOk[l] = true) →
          x.state = .qualifying ∧ x.cause = none)
      ∧ (∀ y : Ref, y ≠ r → t.qsu.refs[y] = s.qsu.refs[y]) ∧ t.qsu.selected ≠ some r
      ∧ Reviewed (Warming s) { s.qsu with refs := t.qsu.refs } t.qsu.selected
      ∧ SelectionTold false s t
      ∧ (t.qsu.forceIneffective = true ↔
          s.qsu.forced ≠ none ∧ s.qsu.forced ≠ t.qsu.selected)
      ∧ t.qsu = { s.qsu with
          refs := t.qsu.refs
          selected := t.qsu.selected
          forceIneffective := t.qsu.forceIneffective }
      ∧ t.wires = { s.wires with
          loopIn := t.wires.loopIn
          conds := s.wires.conds
            ++ handed (codeRefFault r) (decide (s.qsu.refs[r].state = .faulted))
              (decide (x.state = .faulted))
            ++ handed 15 s.qsu.forceIneffective t.qsu.forceIneffective }
      ∧ (∀ c : PpsChannelId, r = ppsRef c →
          t.cap = { s.cap with pps := s.cap.pps.set c { s.cap.pps[c] with
            window := t.cap.pps[c].window
            prev := none } }
          ∧ t.tsu = s.tsu ∧ t.pku = s.pku
          ∧ (cfg.enabled = false → t.cap.pps[c].window = .idle)
          ∧ (cfg.enabled = true → s.tsu.hold = none → s.tsu.frac < 500000000000 →
              t.cap.pps[c].window = .waiting s.tsu.second))
      ∧ (∀ d : DividerId, r = divRef d →
          t.cap = { s.cap with div := s.cap.div.set d { s.cap.div[d] with
            state := t.cap.div[d].state
            count := 0
            chain := none
            timer := t.cap.div[d].timer } }
          ∧ LogPruned s t ∧ t.pku = s.pku
          ∧ (∀ l ∈ s.tsu.stepLog, ∀ (y : DividerId) (ch : Chain), y ≠ d →
              s.cap.div[y].chain = some ch → ch.note < l.entry → l ∈ t.tsu.stepLog)
          ∧ (cfg.enabled = true → t.cap.div[d].state = .loading
              ∧ t.cap.div[d].timer = some 1500000000000)
          ∧ (cfg.enabled = false → t.cap.div[d].state = .idle ∧ t.cap.div[d].timer = none))
      ∧ (∀ k : PacketId, r = pktRef k →
          t.pku = { s.pku with refs := s.pku.refs.set k { s.pku.refs[k] with
            window := []
            prev := none } }
          ∧ t.cap = s.cap ∧ t.tsu = s.tsu)
      ∧ CompletesHeld n (if clamped then 2 else 1) s.tsu.label s t
      ∧ KeepsAllBut [.tsu, .cap, .pku, .qsu, .xu, .wires] s t))
  ∧ (∀ (s : State) (n : Slot), Held n 1 s → 8 ≤ (Params.w s.xu.slots[n].params 0).toNat →
    ∃ t, exec .configureReference s = .next t
    ∧ CompletesHeld n 5 s.tsu.label s t ∧ KeepsAllBut [.xu] s t)

/-! ### The steering loop -/

/-- LOOP_SELECTION_CHANGE (R79, R80, R82, R83, R93, R105): the state by the kind of the new
reference, the integral at the F in force where the loop leaves FREE-RUN or HOLDOVER, every count and
the pseudo-phase restarted, and what is handed to the HOU and the TSU, in that order. -/
def Obligations.SelectionChangeSetsTheLoop : Prop :=
  ∀ (s : State) (prev new : Option Ref) (fault : Bool) (rest : List LoopEvent)
    (after : LoopState) (i : Int), s.wires.loopIn = .selection prev new fault :: rest →
    (new = none → after = .holdover) →
    (∀ r, new = some r → refKind r = .pps ∨ refKind r = .pkt → after = .acquire) →
    (∀ r, new = some r → refKind r = .frq ∨ refKind r = .line → after = .assisted) →
    ((s.lpu.state = .freeRun ∨ s.lpu.state = .holdover) ∧ new ≠ none → i = s.tsu.freq) →
    (¬((s.lpu.state = .freeRun ∨ s.lpu.state = .holdover) ∧ new ≠ none) → i = s.lpu.integral) →
    exec .loopSelectionChange s = .next
      { s with
        lpu := { s.lpu with
          state := after
          integral := i
          lockCount := 0
          unlockCount := 0
          outliers := 0
          pseudo := none
          stepPending := false
          followed := new
          noReference := decide (new = none)
          freeRunning := false }
        wires := { s.wires with
          loopIn := rest
          houIn := s.wires.houIn ++ (if fault then [.guardPop] else [])
            ++ [.state s.lpu.state after i]
          tsuIn := s.wires.tsuIn ++ [.state s.lpu.state after]
          conds := s.wires.conds
            ++ (if s.lpu.noReference = decide (new = none) then []
                else [⟨8, decide (new = none)⟩])
            ++ (if s.lpu.freeRunning = true then [⟨10, false⟩] else []) } }

/-- FORWARDED_MEASUREMENT in ACQUIRE within the step threshold (R84, R85, R90, R91, R92, R97, R81):
P, I and F by the ACQUIRE shifts, each clamped as R90 says, the lock count, the change to TRACK at
the lock limit, the uncertainty |e| plus the accuracy. -/
def Obligations.AcquireSteersAndLocks : Prop :=
  ∀ (s : State) (r : Ref) (l : Label) (e : Int) (δ : Option Int) (sp : Option Nat) (nc : Bool)
    (rest : List LoopEvent) (p i f : Int) (n : Nat),
    s.wires.loopIn = .forwarded r l (some e) δ sp nc :: rest → s.lpu.followed = some r →
    s.lpu.state = .acquire → s.lpu.stepPending = false → e.natAbs ≤ s.lpu.cfg.stepThreshold →
    p = roundDiv e (2 ^ s.lpu.cfg.acqP) →
    i = clampAbs (s.lpu.integral + roundDiv e (2 ^ s.lpu.cfg.acqI)) s.lpu.cfg.fLimit →
    f = clampAbs (p + i) s.lpu.cfg.fLimit →
    n = (if e.natAbs ≤ s.lpu.cfg.lockThreshold then min (s.lpu.lockCount + 1) 255 else 0) →
    ∃ t, exec .forwardedMeasurement s = .next t
    ∧ t.tsu = { s.tsu with freq := f }
    ∧ (e.natAbs ≤ s.lpu.cfg.lockThreshold ∧ s.lpu.cfg.lockLimit ≤ n →
        t.lpu = { s.lpu with
          state := .track
          integral := i
          lockCount := n
          unlockCount := 0
          outliers := 0
          firstLockSpent := true
          lastE := some e
          lastX := some e
          lastP := some p
          freqLimit := decide (f ≠ p + i) }
        ∧ t.wires.houIn = s.wires.houIn
          ++ [.uncertainty (min 999999999999 (e.natAbs + s.qsu.refs[r].cfg.accuracy)),
              .state .acquire .track i]
        ∧ t.wires.tsuIn = s.wires.tsuIn ++ [.state .acquire .track]
        ∧ t.xu.attn[clsSelect].count = s.xu.attn[clsSelect].count + 1
        ∧ ChangesXu s.xu.slots s.xu.unit [clsSelect] s t)
    ∧ (¬(e.natAbs ≤ s.lpu.cfg.lockThreshold ∧ s.lpu.cfg.lockLimit ≤ n) →
        t.lpu = { s.lpu with
          integral := i
          lockCount := n
          lastE := some e
          lastX := some e
          lastP := some p
          freqLimit := decide (f ≠ p + i) }
        ∧ t.wires.houIn = s.wires.houIn
          ++ [.uncertainty (min 999999999999 (e.natAbs + s.qsu.refs[r].cfg.accuracy))]
        ∧ t.wires.tsuIn = s.wires.tsuIn ∧ t.xu = s.xu)
    ∧ t.wires = { s.wires with
        loopIn := rest
        houIn := t.wires.houIn
        tsuIn := t.wires.tsuIn
        conds := s.wires.conds ++ handed 11 s.lpu.freqLimit (decide (f ≠ p + i)) }
    ∧ KeepsAllBut [.tsu, .lpu, .xu, .wires] s t

/-- FORWARDED_MEASUREMENT in ACQUIRE beyond the step threshold (R85, R86, R90, R91, R92, R97): a
permitted step is ordered within ±500,000,000,000 ps, and F, I and FREQUENCY-LIMIT are unchanged; without
one the input is limited to ±T_s and steers as R90 says, a change of FREQUENCY-LIMIT handed. -/
def Obligations.AcquireOrdersAStep : Prop :=
  ∀ (s : State) (r : Ref) (l : Label) (e : Int) (δ : Option Int) (sp : Option Nat) (nc : Bool)
    (rest : List LoopEvent) (x p i f : Int),
    s.wires.loopIn = .forwarded r l (some e) δ sp nc :: rest →
    s.lpu.followed = some r → s.lpu.state = .acquire → s.lpu.stepPending = false →
    s.lpu.cfg.stepThreshold < e.natAbs → s.lpu.cfg.lockThreshold < e.natAbs →
    x = (if 0 < e then (s.lpu.cfg.stepThreshold : Int) else -(s.lpu.cfg.stepThreshold : Int)) →
    p = roundDiv x (2 ^ s.lpu.cfg.acqP) →
    i = clampAbs (s.lpu.integral + roundDiv x (2 ^ s.lpu.cfg.acqI)) s.lpu.cfg.fLimit →
    f = clampAbs (p + i) s.lpu.cfg.fLimit →
    ∃ t, exec .forwardedMeasurement s = .next t
    ∧ (s.lpu.cfg.policy = .always ∨ s.lpu.cfg.policy = .firstLock ∧ s.lpu.firstLockSpent = false →
        t.tsu = s.tsu
        ∧ t.lpu = { s.lpu with
            lockCount := 0
            stepPending := true
            lastE := some e
            lastX := none
            lastP := none }
        ∧ t.wires.tsuIn = s.wires.tsuIn
          ++ [.step (max (-500000000000) (min 500000000000 e))]
        ∧ t.wires.conds = s.wires.conds)
    ∧ (s.lpu.cfg.policy = .never ∨ s.lpu.cfg.policy = .firstLock ∧ s.lpu.firstLockSpent = true →
        t.tsu = { s.tsu with freq := f }
        ∧ t.lpu = { s.lpu with
            integral := i
            lockCount := 0
            lastE := some e
            lastX := some x
            lastP := some p
            freqLimit := decide (f ≠ p + i) }
        ∧ t.wires.tsuIn = s.wires.tsuIn
        ∧ t.wires.conds = s.wires.conds ++ handed 11 s.lpu.freqLimit (decide (f ≠ p + i)))
    ∧ t.wires = { s.wires with
        loopIn := rest
        houIn := s.wires.houIn
          ++ [.uncertainty (min 999999999999 (e.natAbs + s.qsu.refs[r].cfg.accuracy))]
        tsuIn := t.wires.tsuIn
        conds := t.wires.conds }
    ∧ KeepsAllBut [.tsu, .lpu, .wires] s t

/-- FORWARDED_MEASUREMENT in TRACK (R81, R84, R88, R89, R90, R91, R96, R97): an outlier changes no F
and hands a JUMP verdict at the third; otherwise the input is e or ±T_u, F goes to the history, a change
of FREQUENCY-LIMIT is handed, and the unlock limit returns the loop to ACQUIRE. -/
def Obligations.TrackGatesAndUnlocks : Prop :=
  ∀ (s : State) (r : Ref) (l : Label) (e : Int) (δ : Option Int) (sp : Option Nat) (nc : Bool)
    (rest : List LoopEvent) (x p i f : Int) (n : Nat),
    s.wires.loopIn = .forwarded r l (some e) δ sp nc :: rest → s.lpu.followed = some r →
    s.lpu.state = .track → s.lpu.stepPending = false →
    x = (if e.natAbs ≤ s.lpu.cfg.unlockThreshold then e
      else if 0 < e then (s.lpu.cfg.unlockThreshold : Int) else -(s.lpu.cfg.unlockThreshold : Int)) →
    p = roundDiv x (2 ^ s.lpu.cfg.trackP) →
    i = clampAbs (s.lpu.integral + roundDiv x (2 ^ s.lpu.cfg.trackI)) s.lpu.cfg.fLimit →
    f = clampAbs (p + i) s.lpu.cfg.fLimit →
    n = (if e.natAbs ≤ s.lpu.cfg.unlockThreshold then 0 else min (s.lpu.unlockCount + 1) 255) →
    ∃ t, exec .forwardedMeasurement s = .next t
    ∧ (s.lpu.cfg.stepThreshold < e.natAbs →
        t.tsu = s.tsu ∧ t.xu = s.xu
        ∧ t.lpu = { s.lpu with
            lastE := some e
            lastX := none
            lastP := none
            outliers := if s.lpu.outliers < 2 then s.lpu.outliers + 1 else 0 }
        ∧ t.wires = { s.wires with
            loopIn := rest
            verdicts := s.wires.verdicts ++ (if s.lpu.outliers < 2 then [] else [r]) })
    ∧ (e.natAbs ≤ s.lpu.cfg.stepThreshold →
        t.tsu = { s.tsu with freq := f }
        ∧ t.wires = { s.wires with
            loopIn := rest
            houIn := t.wires.houIn
            tsuIn := t.wires.tsuIn
            conds := s.wires.conds ++ handed 11 s.lpu.freqLimit (decide (f ≠ p + i)) }
        ∧ (e.natAbs ≤ s.lpu.cfg.unlockThreshold ∨ n < s.lpu.cfg.unlockLimit →
            t.lpu = { s.lpu with
              integral := i
              unlockCount := n
              outliers := 0
              lastE := some e
              lastX := some x
              lastP := some p
              freqLimit := decide (f ≠ p + i) }
            ∧ t.xu = s.xu ∧ t.wires.tsuIn = s.wires.tsuIn
            ∧ t.wires.houIn = s.wires.houIn ++ [.feed f,
                .uncertainty (min 999999999999 (e.natAbs + s.qsu.refs[r].cfg.accuracy))])
        ∧ (s.lpu.cfg.unlockThreshold < e.natAbs → s.lpu.cfg.unlockLimit ≤ n →
            t.lpu = { s.lpu with
              state := .acquire
              integral := i
              lockCount := 0
              unlockCount := n
              outliers := 0
              lastE := some e
              lastX := some x
              lastP := some p
              freqLimit := decide (f ≠ p + i) }
            ∧ t.xu.attn[clsSelect].count = s.xu.attn[clsSelect].count + 1
            ∧ t.xu.attn[clsSelect].pending = true ∧ ChangesXu s.xu.slots s.xu.unit [clsSelect] s t
            ∧ t.wires.tsuIn = s.wires.tsuIn ++ [.state .track .acquire]
            ∧ t.wires.houIn = s.wires.houIn ++ [.feed f,
                .uncertainty (min 999999999999 (e.natAbs + s.qsu.refs[r].cfg.accuracy)),
                .state .track .acquire i]))
    ∧ KeepsAllBut [.tsu, .lpu, .xu, .wires] s t

/-- FORWARDED_MEASUREMENT in ASSISTED (R84, R90, R93 to R96): the pseudo-phase anchored at 0, or
moved by Δ within its bound, steers through the TRACK shifts, hands a change of FREQUENCY-LIMIT (R91) and
feeds the history. -/
def Obligations.AssistedFollowsThePseudoPhase : Prop :=
  ∀ (s : State) (r : Ref) (l : Label) (e : Option Int) (δ : Int) (sp : Option Nat) (nc : Bool)
    (rest : List LoopEvent) (x p i f : Int),
    s.wires.loopIn = .forwarded r l e (some δ) sp nc :: rest → s.lpu.followed = some r →
    s.lpu.state = .assisted → s.lpu.stepPending = false →
    (s.lpu.pseudo = none ∨ nc = true → x = 0) →
    (∀ v, s.lpu.pseudo = some v → nc = false →
      x = max (-500000000000) (min 500000000000 (v + δ))) →
    p = roundDiv x (2 ^ s.lpu.cfg.trackP) →
    i = clampAbs (s.lpu.integral + roundDiv x (2 ^ s.lpu.cfg.trackI)) s.lpu.cfg.fLimit →
    f = clampAbs (p + i) s.lpu.cfg.fLimit →
    ∃ t, exec .forwardedMeasurement s = .next t
    ∧ t.tsu = { s.tsu with freq := f }
    ∧ t.lpu = { s.lpu with
        pseudo := some x
        lastE := some x
        lastX := some x
        lastP := some p
        integral := i
        freqLimit := decide (f ≠ p + i) }
    ∧ t.wires = { s.wires with
        loopIn := rest
        houIn := s.wires.houIn ++ [.feed f]
        conds := s.wires.conds ++ handed 11 s.lpu.freqLimit (decide (f ≠ p + i)) }
    ∧ KeepsAllBut [.tsu, .lpu, .wires] s t

/-- Notices that do not apply are discarded (R84, R86); UNUSABLE_NOTICE (R84, R92) returns the lock
count to 0 in ACQUIRE and does nothing elsewhere. LPU_BOUNDARY (R82, R87): a boundary with a LOOP step
ends the pending step; FREE-RUNNING goes present in FREE-RUN without warm-up hold. -/
def Obligations.LoopNoticesAndBoundary : Prop :=
  ((∀ (s : State) (r : Ref) (l : Label) (e δ : Option Int) (sp : Option Nat) (nc : Bool)
    (rest : List LoopEvent), s.wires.loopIn = .forwarded r l e δ sp nc :: rest →
    (s.lpu.followed ≠ some r ∨ s.lpu.state = .freeRun ∨ s.lpu.state = .holdover
      ∨ s.lpu.stepPending = true) →
    exec .forwardedMeasurement s = .next { s with wires := { s.wires with loopIn := rest } })
  ∧ (∀ (s : State) (r : Ref) (l : Label) (c : Cause) (rest : List LoopEvent),
    s.wires.loopIn = .unusable r l c :: rest →
    (s.lpu.followed = some r → s.lpu.state = .acquire → s.lpu.stepPending = false →
      exec .unusableNotice s = .next
        { s with
          lpu := { s.lpu with lockCount := 0 }
          wires := { s.wires with loopIn := rest } })
    ∧ (s.lpu.followed ≠ some r ∨ s.lpu.state ≠ .acquire ∨ s.lpu.stepPending = true →
      exec .unusableNotice s = .next { s with wires := { s.wires with loopIn := rest } })))
  ∧ (∀ (s : State) (b : Boundary) (rest : List Boundary) (free : Bool),
    s.wires.lpuBnd = b :: rest →
    (free = true ↔ s.lpu.freeRunning = true ∨ s.lpu.state = .freeRun ∧ s.lpu.warmHold = false) →
    ∃ t, exec .lpuBoundary s = .next t
    ∧ ((∃ v, b.step = some (v, .loop)) →
        t.lpu = { s.lpu with stepPending := false, freeRunning := free })
    ∧ ((∀ v, b.step ≠ some (v, .loop)) → t.lpu = { s.lpu with freeRunning := free })
    ∧ t.wires = { s.wires with
        lpuBnd := rest
        conds := s.wires.conds ++ (if s.lpu.freeRunning = free then [] else [⟨10, true⟩]) }
    ∧ KeepsAllBut [.lpu, .wires] s t)

/-- CONFIGURE-LOOP (R4, R91, R98, R99): a configuration whose every parameter passes its check
replaces the old one whole, I and the F in force clamped to a lower bound, FREQUENCY-LIMIT present
and handed where that clamps F; any other completes INVALID. -/
def Obligations.ConfigureLoopReplacesAll : Prop :=
  ∀ (s : State) (n : Slot) (p : Vector Word 24) (good : Prop), Held n 6 s →
    p = s.xu.slots[n].params →
    (good ↔ Params.n1 p 0 ≤ 15 ∧ Params.n1 p 0 ≤ Params.n1 p 1 ∧ Params.n1 p 1 ≤ 24
      ∧ Params.n1 p 2 ≤ 15 ∧ Params.n1 p 2 ≤ Params.n1 p 3 ∧ Params.n1 p 3 ≤ 24
      ∧ 100000 ≤ Params.n3 p 4 ∧ Params.n3 p 4 ≤ 500000000000
      ∧ 1000 ≤ Params.n3 p 10 ∧ Params.n3 p 10 ≤ Params.n3 p 7 ∧ Params.n3 p 7 ≤ Params.n3 p 4
      ∧ (1 ≤ Params.n1 p 13 ∧ Params.n1 p 13 ≤ 255)
      ∧ (1 ≤ Params.n1 p 14 ∧ Params.n1 p 14 ≤ 255)
      ∧ (1000 ≤ Params.n2 p 15 ∧ Params.n2 p 15 ≤ 50000000) ∧ Params.n1 p 17 ≤ 2) →
    ∃ t, exec .configureLoop s = .next t
    ∧ (¬good → t.tsu = s.tsu ∧ t.lpu = s.lpu ∧ t.wires = s.wires
        ∧ CompletesHeld n 5 s.tsu.label s t)
    ∧ (good →
        t.lpu.cfg = ⟨Params.n1 p 0, Params.n1 p 1, Params.n1 p 2, Params.n1 p 3, Params.n3 p 4,
          Params.n3 p 7, Params.n3 p 10, Params.n1 p 13, Params.n1 p 14, Params.n2 p 15,
          if Params.n1 p 17 = 0 then .never
          else if Params.n1 p 17 = 1 then .firstLock else .always⟩
        ∧ t.tsu = { s.tsu with freq := clampAbs s.tsu.freq (Params.n2 p 15) }
        ∧ t.lpu = { s.lpu with
            cfg := t.lpu.cfg
            integral := clampAbs s.lpu.integral (Params.n2 p 15)
            freqLimit := s.lpu.freqLimit || decide (Params.n2 p 15 < s.tsu.freq.natAbs) }
        ∧ t.wires = { s.wires with
            conds := s.wires.conds ++ handed 11 s.lpu.freqLimit t.lpu.freqLimit }
        ∧ CompletesHeld n 1 s.tsu.label s t)
    ∧ KeepsAllBut [.tsu, .lpu, .xu, .wires] s t

/-! ### Holdover and time uncertainty -/

/-- HISTORY_FEED (R102), INTERVAL_END (R103, R106), GUARD_POP_NOTICE (R104, R105, R106): a feed is
summed; an interval at least half fed pushes its rounded average and D_learn is learned again; each
of the g pops drops the newest level. Class and conditions stand settled after each, and each change of
presence is handed (R113 to R115). That INTERVAL_END comes before any other event of the unit, which has
no effect until then, is the model's (log entry 8). -/
def Obligations.HistoryIsFedPushedAndPopped : Prop :=
  (∀ (s : State) (f : Int) (rest : List HouEvent), s.wires.houIn = .feed f :: rest →
    s.hou.ended = false → ∃ t, exec .historyFeed s = .next t
    ∧ t.hou = { s.hou with
        sum := s.hou.sum + f
        count := min (s.hou.count + 1) 65535
        quality := t.hou.quality
        budget := t.hou.budget
        notReady := t.hou.notReady }
    ∧ HouSettled t.hou
    ∧ t.wires = { s.wires with houIn := rest, conds := s.wires.conds ++ houHanded s.hou t.hou }
    ∧ KeepsAllBut [.hou, .wires] s t)
  ∧ (∀ s : State, s.hou.ended = false → exec .intervalEnd s = .next s)
  ∧ (∀ s : State, s.hou.ended = true →
    (exec .historyFeed s = .next s ∧ exec .guardPopNotice s = .next s
      ∧ exec .loopStateChangeHou s = .next s ∧ exec .uncertaintyValue s = .next s
      ∧ exec .houBoundary s = .next s ∧ exec .clearHistory s = .next s
      ∧ exec .configureHoldover s = .next s)
    ∧ ∃ t, exec .intervalEnd s = .next t
    ∧ t.hou = { s.hou with
        levels := t.hou.levels
        fill := t.hou.fill
        sum := 0
        count := 0
        position := 0
        ended := false
        dLearn := t.hou.dLearn
        quality := t.hou.quality
        budget := t.hou.budget
        notReady := t.hou.notReady }
    ∧ (s.hou.cfg.interval ≤ 2 * s.hou.count →
        t.hou.fill = min 8 (s.hou.fill + 1) ∧ t.hou.levels[0] = roundDiv s.hou.sum s.hou.count
        ∧ (∀ k : Fin 7, t.hou.levels[k.val + 1] = s.hou.levels[k.val])
        ∧ (4 ≤ t.hou.fill → t.hou.dLearn =
            some (roundDiv ((t.hou.levels[0] - t.hou.levels.toList.getD (t.hou.fill - 1) 0) * 86400)
              ((t.hou.fill - 1) * s.hou.cfg.interval)))
        ∧ (t.hou.fill < 4 → t.hou.dLearn = none))
    ∧ (2 * s.hou.count < s.hou.cfg.interval →
        t.hou.fill = s.hou.fill ∧ t.hou.levels = s.hou.levels ∧ t.hou.dLearn = s.hou.dLearn)
    ∧ HouSettled t.hou
    ∧ t.wires = { s.wires with conds := s.wires.conds ++ houHanded s.hou t.hou }
    ∧ KeepsAllBut [.hou, .wires] s t)
  ∧ (∀ (s : State) (rest : List HouEvent), s.wires.houIn = .guardPop :: rest →
    s.hou.ended = false → ∃ t, exec .guardPopNotice s = .next t
    ∧ t.hou = { s.hou with
        levels := t.hou.levels
        fill := s.hou.fill - s.hou.cfg.guards
        sum := 0
        count := 0
        position := 0
        dLearn := t.hou.dLearn
        quality := t.hou.quality
        budget := t.hou.budget
        notReady := t.hou.notReady }
    ∧ (s.hou.cfg.guards ≤ s.hou.fill → ∀ i j : Fin 8, j.val = i.val + s.hou.cfg.guards →
        t.hou.levels[i] = s.hou.levels[j])
    ∧ (s.hou.fill = 0 → t.hou.levels = s.hou.levels)
    ∧ (t.hou.fill < 4 → t.hou.dLearn = none)
    ∧ (4 ≤ t.hou.fill → t.hou.dLearn =
        some (roundDiv ((t.hou.levels[0] - t.hou.levels.toList.getD (t.hou.fill - 1) 0) * 86400)
          ((t.hou.fill - 1) * s.hou.cfg.interval)))
    ∧ HouSettled t.hou
    ∧ t.wires = { s.wires with houIn := rest, conds := s.wires.conds ++ houHanded s.hou t.hou }
    ∧ KeepsAllBut [.hou, .wires] s t)

/-- LOOP_STATE_CHANGE_HOU (R104, R106, R108, R110): holdover is entered with mean, aging and base from
the stack, its clock at 0 and U_entry at U; a change from TRACK or ASSISTED discards the interval; U
stays. UNCERTAINTY_VALUE (R112): the value is U at once, in ACQUIRE and TRACK. Class and conditions stand
settled after each, and each change of presence is handed (R113 to R115). -/
def Obligations.HoldoverIsEntered : Prop :=
  (∀ (s : State) (before after : LoopState) (i : Int) (rest : List HouEvent) (d m : Int),
    s.wires.houIn = .state before after i :: rest → s.hou.ended = false →
    d = clampAbs (if s.hou.cfg.fixedAging = true then s.hou.cfg.dCfg
      else s.hou.dLearn.getD s.hou.cfg.dCfg) s.hou.cfg.dMax →
    m = (if s.hou.fill = 0 then i
      else roundDiv ((s.hou.levels.toList.take s.hou.fill).sum) s.hou.fill) →
    ∃ t, exec .loopStateChangeHou s = .next t ∧ t.hou.loop = after ∧ t.hou.u = s.hou.u
    ∧ (before = .track ∨ before = .assisted →
        t.hou.sum = 0 ∧ t.hou.count = 0 ∧ t.hou.position = 0)
    ∧ (before ≠ .track → before ≠ .assisted → t.hou.sum = s.hou.sum
        ∧ t.hou.count = s.hou.count ∧ t.hou.position = s.hou.position)
    ∧ (after = .holdover → t.hou.dHold = d ∧ t.hou.clock = 0 ∧ t.hou.uEntry = s.hou.u
        ∧ t.hou.fBase = m + roundDiv (d * ((s.hou.fill * s.hou.cfg.interval : Nat) : Int)) 172800)
    ∧ (after ≠ .holdover → t.hou.dHold = s.hou.dHold ∧ t.hou.clock = s.hou.clock
        ∧ t.hou.uEntry = s.hou.uEntry ∧ t.hou.fBase = s.hou.fBase)
    ∧ t.hou.levels = s.hou.levels ∧ t.hou.fill = s.hou.fill ∧ t.hou.dLearn = s.hou.dLearn
    ∧ t.hou.cfg = s.hou.cfg ∧ t.hou.ended = false ∧ HouSettled t.hou
    ∧ t.wires = { s.wires with houIn := rest, conds := s.wires.conds ++ houHanded s.hou t.hou }
    ∧ KeepsAllBut [.hou, .wires] s t)
  ∧ (∀ (s : State) (v : Nat) (rest : List HouEvent), s.wires.houIn = .uncertainty v :: rest →
    s.hou.ended = false → s.hou.loop = .acquire ∨ s.hou.loop = .track →
    ∃ t, exec .uncertaintyValue s = .next t ∧ t.hou.u = min 999999999999 v
    ∧ t.hou = { s.hou with
        u := t.hou.u
        quality := t.hou.quality
        budget := decide (s.hou.cfg.uAlarm < t.hou.u)
        notReady := t.hou.notReady }
    ∧ HouSettled t.hou
    ∧ t.wires = { s.wires with houIn := rest, conds := s.wires.conds ++ houHanded s.hou t.hou }
    ∧ KeepsAllBut [.hou, .wires] s t)

/-- HOU_BOUNDARY by the loop state the unit sees (R91, R101, R102, R109, R112 to R115): the position in
TRACK and ASSISTED, back to 0 where it reaches the interval, which ends there, the growth of U in
ASSISTED and HOLDOVER, F_hold written within ±F_limit, U with its class handed on, class and conditions
settled, and each change of presence handed, that of FREQUENCY-LIMIT included. That the end of the
interval is held until its INTERVAL_END is taken is the model's (log entry 8). -/
def Obligations.HoldoverBoundary : Prop :=
  ∀ (s : State) (b : Boundary) (rest : List Boundary), s.wires.houBnd = b :: rest →
    s.hou.ended = false → ∃ t, exec .houBoundary s = .next t
    ∧ (s.hou.loop = .track ∨ s.hou.loop = .assisted →
        (s.hou.position + 1 < s.hou.cfg.interval →
          t.hou.position = s.hou.position + 1 ∧ t.hou.ended = false)
        ∧ (s.hou.cfg.interval ≤ s.hou.position + 1 → t.hou.position = 0 ∧ t.hou.ended = true))
    ∧ (s.hou.loop ≠ .track → s.hou.loop ≠ .assisted →
        t.hou.position = s.hou.position ∧ t.hou.ended = false)
    ∧ (s.hou.loop ≠ .assisted → s.hou.loop ≠ .holdover → t.hou.u = s.hou.u)
    ∧ (s.hou.loop = .assisted → t.hou.u = min 999999999999 (s.hou.u + s.hou.cfg.yAssist))
    ∧ (∀ n f : Nat, ∀ g : Int, s.hou.loop = .holdover → n = min (s.hou.clock + 1) 4294967295 →
        (f : Int) = roundDiv ((s.hou.cfg.aging * n ^ 2 : Nat) : Int) 172800 →
        g = s.hou.fBase + roundDiv (s.hou.dHold * (n : Int)) 86400 →
        t.hou.clock = n ∧ t.hou.u = min 999999999999 (s.hou.uEntry + s.hou.cfg.yHold * n + f)
        ∧ t.tsu = { s.tsu with freq := clampAbs g s.lpu.cfg.fLimit }
        ∧ t.lpu = { s.lpu with freqLimit := decide (clampAbs g s.lpu.cfg.fLimit ≠ g) })
    ∧ (s.hou.loop ≠ .holdover → t.tsu = s.tsu ∧ t.lpu = s.lpu ∧ t.hou.clock = s.hou.clock)
    ∧ t.hou = { s.hou with
        position := t.hou.position
        ended := t.hou.ended
        clock := t.hou.clock
        u := t.hou.u
        quality := t.hou.quality
        budget := t.hou.budget
        notReady := t.hou.notReady }
    ∧ HouSettled t.hou
    ∧ t.wires = { s.wires with
        houBnd := rest
        ptuValues := s.wires.ptuValues ++ [⟨t.hou.u, t.hou.quality⟩]
        xuValues := s.wires.xuValues ++ [⟨t.hou.u, t.hou.quality⟩]
        conds := s.wires.conds ++ handed 11 s.lpu.freqLimit t.lpu.freqLimit
          ++ houHanded s.hou t.hou }
    ∧ KeepsAllBut [.tsu, .lpu, .hou, .wires] s t

/-- CLEAR-HISTORY (R107) empties the stack and the interval and completes OK. CONFIGURE-HOLDOVER
(R116, R117): the interval clamped to 16 to 3,600 (ADJUSTED), every other parameter checked; a changed
interval discards the one in progress and has D_learn computed again; out of range completes INVALID.
Class and conditions stand settled after each, and each change of presence is handed (R113 to R115). -/
def Obligations.HoldoverRequests : Prop :=
  (∀ (s : State) (n : Slot), Held n 8 s → s.hou.ended = false →
    ∃ t, exec .clearHistory s = .next t
    ∧ t.hou = { s.hou with
        levels := Vector.replicate 8 0
        fill := 0
        sum := 0
        count := 0
        position := 0
        dLearn := none
        quality := t.hou.quality
        budget := t.hou.budget
        notReady := t.hou.notReady }
    ∧ HouSettled t.hou
    ∧ t.wires = { s.wires with conds := s.wires.conds ++ houHanded s.hou t.hou }
    ∧ CompletesHeld n 1 s.tsu.label s t ∧ KeepsAllBut [.hou, .xu, .wires] s t)
  ∧ (∀ (s : State) (n : Slot) (p : Vector Word 24) (good : Prop) (v : Nat), Held n 7 s →
    p = s.xu.slots[n].params → s.hou.ended = false →
    v = max 16 (min 3600 (Params.n1 p 0)) →
    (good ↔ Params.n1 p 1 ≤ 3 ∧ Params.n1 p 2 ≤ 1 ∧ (Params.i2 p 3).natAbs ≤ 1000000
      ∧ Params.n2 p 5 ≤ 1000000 ∧ Params.n2 p 7 ≤ 100000000 ∧ Params.n2 p 9 ≤ 1000000
      ∧ Params.n2 p 11 ≤ 1000000 ∧ (1000 ≤ Params.n3 p 13 ∧ Params.n3 p 13 ≤ 999999999999)
      ∧ (1 ≤ Params.n1 p 16 ∧ Params.n1 p 16 ≤ 8)) →
    ∃ t, exec .configureHoldover s = .next t
    ∧ (¬good → t.hou = s.hou ∧ t.wires = s.wires ∧ CompletesHeld n 5 s.tsu.label s t)
    ∧ (good →
        t.hou.cfg = ⟨v, Params.n1 p 1, decide (Params.n1 p 2 = 1), Params.i2 p 3, Params.n2 p 5,
          Params.n2 p 7, Params.n2 p 9, Params.n2 p 11, Params.n3 p 13, Params.n1 p 16⟩
        ∧ (v = s.hou.cfg.interval → t.hou.sum = s.hou.sum ∧ t.hou.count = s.hou.count
            ∧ t.hou.position = s.hou.position ∧ t.hou.dLearn = s.hou.dLearn)
        ∧ (v ≠ s.hou.cfg.interval →
            t.hou.sum = 0 ∧ t.hou.count = 0 ∧ t.hou.position = 0
            ∧ (s.hou.fill < 4 → t.hou.dLearn = none)
            ∧ (4 ≤ s.hou.fill → t.hou.dLearn = some (roundDiv
                ((s.hou.levels[0] - s.hou.levels.toList.getD (s.hou.fill - 1) 0) * 86400)
                ((s.hou.fill - 1) * v))))
        ∧ t.hou = { s.hou with
            sum := t.hou.sum
            count := t.hou.count
            position := t.hou.position
            dLearn := t.hou.dLearn
            quality := t.hou.quality
            budget := t.hou.budget
            notReady := t.hou.notReady
            cfg := t.hou.cfg }
        ∧ HouSettled t.hou
        ∧ t.wires = { s.wires with conds := s.wires.conds ++ houHanded s.hou t.hou }
        ∧ CompletesHeld n (if v = Params.n1 p 0 then 1 else 2) s.tsu.label s t)
    ∧ KeepsAllBut [.hou, .xu, .wires] s t)

/-! ### Output ports -/

/-- PTU_BOUNDARY_WORK (R122 to R124, R129 to R131, R133, R135): staged settings become active and their
request completes with the label of the boundary, DONE bumped once for each (R171), each port's state
follows the table of R130, an OFF or SQUELCHED port loses its periods and stands at its level, a RUNNING
port has the message of the second fixed and arms the period of the one that follows, a measurement
hears that its port left RUNNING, PORT is bumped for each changed state, PORT-SQUELCHED and the handed
states follow. That a port which stays SQUELCHED takes the level of its new settings is the model's (log
entry 26). -/
def Obligations.BoundaryWorkSetsThePorts : Prop :=
  ∀ (s : State) (b : Boundary) (bs : List Boundary) (v : HouValues) (vs : List HouValues)
    (fix : Plan → Plan), s.wires.ptuBnd = b :: bs → s.wires.ptuValues = v :: vs →
    (∀ x, fix x = if x.second = b.second ∧ x.settings.mode = .timecode
      then { x with message := some (siteMessage b v s.qsu.selected) } else x) →
    ∃ t, exec .ptuBoundaryWork s = .next t
    ∧ (∀ (p : Port) (e x : PortEntry), e = s.ptu.ports[p] → x = t.ptu.ports[p] →
        x.staged = none
        ∧ x.active = (match e.staged with | none => e.active | some g => g.settings)
        ∧ (x.active.mode = .off → x.state = .off)
        ∧ (x.active.mode ≠ .off → b.warmUp = true → s.tsu.startStrap = false →
            x.state = .squelched)
        ∧ (x.active.mode ≠ .off → b.warmUp = false ∨ s.tsu.startStrap = true →
            (x.active.policy = .runAlways → x.state = .running)
            ∧ (x.active.policy = .onBudget →
                x.state = if x.active.limit < v.u then .squelched else .running)
            ∧ (x.active.policy = .unlocked →
                x.state = if s.lpu.state = .freeRun ∨ s.lpu.state = .holdover
                  then .squelched else .running))
        ∧ (x.state = .squelched → x.pin = x.active.level)
        ∧ (x.state = .off → e.state ≠ .off → x.pin = .highZ)
        ∧ (x.state ≠ .running → e.state ≠ x.state → x.armed = [] ∧ x.progress = none)
        ∧ (x.state = .running →
            x.armed = e.armed.map fix ++ [⟨x.active, b.second + 1, none⟩]
            ∧ x.progress = e.progress.map fun pr => { pr with plan := fix pr.plan })
        ∧ (x.state = .running → e.state ≠ .running →
            x.pin = if x.active.polarity = .normal then .low else .high)
        ∧ (x.state = .running → e.state = .running → x.pin = e.pin)
        ∧ x.measuring = e.measuring ∧ x.lastEdge = e.lastEdge
        ∧ x.lastMessage = e.lastMessage)
    ∧ (∀ (p : Port) (n : Slot) (g : PortSettings) (c : Bool),
        s.ptu.ports[p].staged = some ⟨g, .request n, c⟩ → s.xu.slots[n].state = .taken →
        (∀ (q : Port) (g' : PortSettings) (c' : Bool), q ≠ p →
          s.ptu.ports[q].staged ≠ some ⟨g', .request n, c'⟩) →
        t.xu.slots[n] = { s.xu.slots[n] with
          code := if c then 2 else 1
          label := b.label
          state := .done }
        ∧ t.xu.attn[clsDone].pending = true)
    ∧ (∀ n : Slot, (∀ (p : Port) (g : PortSettings) (c : Bool),
          s.ptu.ports[p].staged ≠ some ⟨g, .request n, c⟩) → t.xu.slots[n] = s.xu.slots[n])
    ∧ (∀ n : Slot, s.xu.slots[n].state ≠ .taken → t.xu.slots[n] = s.xu.slots[n])
    ∧ ChangesXu t.xu.slots s.xu.unit [] s t
    ∧ t.xu.attn[clsDone].count = s.xu.attn[clsDone].count + BitVec.ofNat 16
        ((List.finRange 16).filter fun n : Slot =>
          decide (s.xu.slots[n].state ≠ .done ∧ t.xu.slots[n].state = .done)).length
    ∧ t.xu.attn[clsPort].count = s.xu.attn[clsPort].count + BitVec.ofNat 16
        ((List.finRange 12).filter fun p : Port =>
          decide (s.ptu.ports[p].state ≠ t.ptu.ports[p].state)).length
    ∧ (ClaimLaw s → ∀ (a : AuxId) (m : DelayMeas), s.ptu.meas[a] = some m →
        (s.ptu.ports[m.port].state = .running → t.ptu.ports[m.port].state ≠ .running →
          t.ptu.meas[a] = some { m with notices := m.notices ++ [.leftRunning] })
        ∧ (s.ptu.ports[m.port].state ≠ .running ∨ t.ptu.ports[m.port].state = .running →
          t.ptu.meas[a] = some m))
    ∧ (∀ a : AuxId, s.ptu.meas[a] = none → t.ptu.meas[a] = none)
    ∧ (t.ptu.squelched = true ↔ ∃ p : Port, t.ptu.ports[p].state = .squelched)
    ∧ t.ptu.delayFailed = s.ptu.delayFailed
    ∧ t.wires = { s.wires with
        ptuBnd := bs
        ptuValues := vs
        xuPorts := s.wires.xuPorts ++ [t.ptu.ports.map (·.state)]
        conds := s.wires.conds ++ (if t.ptu.squelched = s.ptu.squelched then []
          else [⟨14, t.ptu.squelched⟩]) }
    ∧ KeepsAllBut [.ptu, .xu, .wires] s t

/-- PERIOD_BEGIN and PORT_EDGE (R121, R124, R125, R126, R138): a reached period becomes the period in
progress and a measurement has its leading edge; a reached edge sets the pin, even edges to the active
level, and edge 0 is recorded, in FREQUENCY always. SITE_TIME_MESSAGE (R127, R128, R135, R138): the bits
reached are sent, the end records the label, a message whose start was skipped is not sent.
STEP_RESUMPTION (R128):
after a positive step the pin stands as the last skipped edge would leave it, and a PULSE or TIMECODE
leading edge alone skipped is at the resumption instant. One command for all bits reached (log entry
23), the beginning rounded as its edge (24), skipped edges passed at once (25), nothing recorded of a
PULSE or TIMECODE edge 0 without a change of level, nor of a resumed FREQUENCY period (27), nor of a
message's edges (57), the resumption instant handed where only the leading edge was skipped, with or
without a change of level (49), and the label of a point of the second before (28) are the model's. -/
def Obligations.PortSignalFollowsThePlan : Prop :=
  (∀ (s : State) (p : Port) (plan : Plan) (rest : List Plan) (sec ps : Nat) (l : Label),
    s.ptu.ports[p].armed = plan :: rest → LiesAt plan 0 sec ps → Reached s.tsu sec ps →
    l = (if sec = s.tsu.second then s.tsu.label else s.tsu.prevLabel) →
    ∃ t, exec (.periodBegin p) s = .next t
    ∧ t.ptu.ports = s.ptu.ports.set p
        { s.ptu.ports[p] with armed := rest, progress := some ⟨plan, 0, 0⟩ }
    ∧ (∀ (a : AuxId) (m : DelayMeas), s.ptu.ports[p].measuring = some a →
        s.ptu.meas[a] = some m → t.ptu.meas = s.ptu.meas.set a
          (some { m with notices := m.notices ++ [.period (some (⟨l, ps⟩, sec))] }))
    ∧ (s.ptu.ports[p].measuring = none → t.ptu.meas = s.ptu.meas)
    ∧ t.ptu.squelched = s.ptu.squelched ∧ t.ptu.delayFailed = s.ptu.delayFailed
    ∧ KeepsAllBut [.ptu] s t)
  ∧ (∀ (s : State) (p : Port) (e : PortEntry) (pr : Progress) (x sec ps : Nat) (l : Label)
      (act idle : PinLevel), e = s.ptu.ports[p] → e.progress = some pr →
    EdgeOffset pr.plan.settings pr.edge x → LiesAt pr.plan x sec ps → Reached s.tsu sec ps →
    l = (if sec = s.tsu.second then s.tsu.label else s.tsu.prevLabel) →
    (act = if pr.plan.settings.polarity = .normal then .high else .low) →
    (idle = if pr.plan.settings.polarity = .normal then .low else .high) →
    ∃ t, exec (.portEdge p) s = .next t
    ∧ t.ptu = { s.ptu with ports := s.ptu.ports.set p { e with
        pin := if pr.edge % 2 = 0 then act else idle
        lastEdge := if pr.edge = 0 ∧ (pr.plan.settings.mode = .frequency ∨ act ≠ e.pin)
          then some ⟨l, ps⟩ else e.lastEdge
        progress := t.ptu.ports[p].progress } }
    ∧ ((∀ y, ¬EdgeOffset pr.plan.settings (pr.edge + 1) y) →
        pr.plan.settings.mode ≠ .timecode ∨ 141 ≤ pr.bit → t.ptu.ports[p].progress = none)
    ∧ ((∃ y, EdgeOffset pr.plan.settings (pr.edge + 1) y)
        ∨ pr.plan.settings.mode = .timecode ∧ pr.bit < 141 →
        t.ptu.ports[p].progress = some { pr with edge := pr.edge + 1 })
    ∧ KeepsAllBut [.ptu] s t)
  ∧ (∀ (s : State) (p : Port) (e : PortEntry) (pr : Progress) (m : SiteMessage) (baud : Nat)
      (act idle : PinLevel), e = s.ptu.ports[p] → e.progress = some pr →
    pr.plan.settings.mode = .timecode → baud = pr.plan.settings.baud →
    pr.plan.message = some m →
    (act = if pr.plan.settings.polarity = .normal then .high else .low) →
    (idle = if pr.plan.settings.polarity = .normal then .low else .high) →
    (∀ (j sec ps : Nat) (v : Bool), pr.bit ≤ j → j < 140 →
      (∀ k, pr.bit ≤ k → k ≤ j → ∃ sec' ps', LiesAt pr.plan (messagePoint baud k) sec' ps'
        ∧ Reached s.tsu sec' ps') →
      LiesAt pr.plan (messagePoint baud (j + 1)) sec ps →
      ¬(sec < s.tsu.second ∨ sec = s.tsu.second ∧ s.tsu.hold = none ∧ ps ≤ s.tsu.frac) →
      LineBit m.bytes j v →
      exec (.siteTimeMessage p) s = .next { s with ptu := { s.ptu with
        ports := s.ptu.ports.set p { e with
          pin := if v then idle else act
          progress := some { pr with bit := j + 1 } } } })
    ∧ (∀ sec ps, pr.bit = 140 → LiesAt pr.plan (messagePoint baud 140) sec ps →
      Reached s.tsu sec ps → exec (.siteTimeMessage p) s = .next { s with ptu := { s.ptu with
        ports := s.ptu.ports.set p { e with
          lastMessage := some m.label
          progress := if 2 ≤ pr.edge then none else some { pr with bit := 141 } } } })
    ∧ (∀ ps, pr.bit = 0 → LiesAt pr.plan (messagePoint baud 0) s.tsu.second ps →
      ps < s.tsu.skipTo → exec (.siteTimeMessage p) s = .next { s with ptu := { s.ptu with
        ports := s.ptu.ports.set p { e with
          progress := if 2 ≤ pr.edge then none else some { pr with bit := 141 } } } }))
  ∧ (∀ (s : State) (extra : Nat) (w : PendingStep) (v : Nat) (at_ : Instant) (point : Int),
    s.tsu.due = some extra → s.tsu.step = some w → w.value = v → 0 < v →
    v + extra < 1000000000000 →
    point = ((s.tsu.second : Int) + 1) * 1000000000000 + v + extra →
    ∃ t, exec .secondBoundary s = .next t
    ∧ (at_ = ⟨t.tsu.label, (v + extra) / 125 * 125⟩ →
      ∀ (p : Port) (e x : PortEntry) (pr : Progress) (n : Nat) (level : PinLevel),
      e = s.ptu.ports[p] → x = t.ptu.ports[p] → EarlierEdges pr.plan point n → pr.edge < n →
      (level = if (n % 2 = 1 ↔ pr.plan.settings.polarity = .normal) then .high else .low) →
      (∀ rest ps, e.armed = pr.plan :: rest → LiesAt pr.plan 0 (s.tsu.second + 1) ps →
          ps < v + extra → pr.edge = 0 →
          x = { e with
            armed := rest
            pin := level
            lastEdge := if n = 1 ∧ pr.plan.settings.mode ≠ .frequency ∧ level ≠ e.pin
              then some at_ else e.lastEdge
            progress := x.progress }
          ∧ (pr.plan.settings.mode ≠ .timecode →
              (x.progress = none ↔ ∀ y, ¬EdgeOffset pr.plan.settings n y))
          ∧ (∀ y, x.progress = some y → y.plan = pr.plan ∧ y.edge = n)
          ∧ (∀ (a : AuxId) (m : DelayMeas), ClaimLaw s → e.measuring = some a →
              s.ptu.meas[a] = some m →
              t.ptu.meas[a] = some { m with notices := m.notices
                ++ [.period (if n = 1 then some (at_, s.tsu.second + 1) else none)] }))
      ∧ (∀ y ps, e.progress = some pr → EdgeOffset pr.plan.settings pr.edge y →
          LiesAt pr.plan y (s.tsu.second + 1) ps →
          (∀ q rest, e.armed = q :: rest → ∃ sec' ps', LiesAt q 0 sec' ps'
            ∧ ¬(sec' = s.tsu.second + 1 ∧ ps' < v + extra)) →
          x = { e with
            pin := level
            lastEdge := if pr.edge = 0 ∧ n = 1 ∧ pr.plan.settings.mode ≠ .frequency
              ∧ level ≠ e.pin then some at_ else e.lastEdge
            progress := x.progress }
          ∧ (pr.plan.settings.mode ≠ .timecode →
              (x.progress = none ↔ ∀ y, ¬EdgeOffset pr.plan.settings n y))
          ∧ (∀ y, x.progress = some y → y.plan = pr.plan ∧ y.edge = n))))

/-- The site time message: its 14 bytes (R135, R191), each sent least significant bit first (R127), the
last two its CRC over the first twelve, high byte first. R137: the CRC's register starts with all bits
set; it takes each byte most significant bit first; for each bit it is shifted left by one place and
combined with 0x1021 where the dropped top bit differs from the bit; with no final inversion it gives
0x29B1 over "123456789". -/
def Obligations.SiteMessageBytes : Prop :=
  (∀ (b : Boundary) (v : HouValues) (r : Option Ref), v.quality ≤ 3 →
    (siteMessage b v r).label = b.label ∧ (siteMessage b v r).bytes.length = 14
    ∧ (siteMessage b v r).bytes.take 2 = [0xB6, 0x01]
    ∧ (∀ i : Fin 6, (siteMessage b v r).bytes.getD (2 + i.val) 0
        = (b.label >>> (8 * i.val)).setWidth 8)
    ∧ (∃ f, (siteMessage b v r).bytes[8]? = some f ∧ f.getLsbD 0 = b.timeSet
        ∧ f.getLsbD 1 = b.leap.isSome ∧ (f.getLsbD 2 = true ↔ b.leap = some .delete)
        ∧ f.getLsbD 3 = b.repeated ∧ f.toNat < 16)
    ∧ (siteMessage b v r).bytes[9]? = some (BitVec.ofNat 8 v.quality)
    ∧ (siteMessage b v r).bytes[10]? = some (BitVec.ofNat 8 (uncertaintyCode v.u))
    ∧ (r = none → (siteMessage b v r).bytes[11]? = some 0)
    ∧ (∀ c : PpsChannelId, r = some (ppsRef c) → (siteMessage b v r).bytes[11]? = some 1)
    ∧ (∀ d : DividerId, r = some (divRef d) → d.val < 2 → (siteMessage b v r).bytes[11]? = some 2)
    ∧ (∀ l : LineId, r = some (lineRef l) → (siteMessage b v r).bytes[11]? = some 3)
    ∧ (∀ k : PacketId, r = some (pktRef k) → (siteMessage b v r).bytes[11]? = some 4))
  ∧ (∀ (b : Boundary) (v : HouValues) (r : Option Ref),
    (siteMessage b v r).bytes.drop 12 =
        [(crc16 ((siteMessage b v r).bytes.take 12) >>> 8).setWidth 8,
          (crc16 ((siteMessage b v r).bytes.take 12)).setWidth 8]
    ∧ ∀ j, j < 140 →
        LineBit (siteMessage b v r).bytes j (messageBit (siteMessage b v r).bytes j))
  ∧ (∃ reg : List Bool → BitVec 16, reg [] = 0xFFFF
    ∧ (∀ bits x, reg (bits ++ [x]) = if (reg bits).getMsbD 0 = x then reg bits <<< 1
        else reg bits <<< 1 ^^^ 0x1021)
    ∧ ∀ bytes : List Byte, crc16 bytes = reg (bytes.flatMap bitsOf))
  ∧ crc16 [0x31, 0x32, 0x33, 0x34, 0x35, 0x36, 0x37, 0x38, 0x39] = 0x29B1

/-- R136: the uncertainty code is the smallest n from 0 to 31 whose bound 2ⁿ × 1,000 ps holds the
boundary U, 31 where there is none, and 0 to 30 for a U within its range. -/
def Obligations.UncertaintyCodeBoundsU : Prop :=
  ∀ u : Nat, (uncertaintyCode u ≤ 31)
    ∧ (∀ n, n ≤ 31 → u ≤ 2 ^ n * 1000 →
        u ≤ 2 ^ uncertaintyCode u * 1000 ∧ uncertaintyCode u ≤ n)
    ∧ ((∀ n, n ≤ 31 → ¬u ≤ 2 ^ n * 1000) → uncertaintyCode u = 31)
    ∧ (u ≤ 999999999999 → uncertaintyCode u ≤ 30)

/-! ### Port requests and the cable delay measurement -/

/-- The fields of a CONFIGURE-PORT and when they are in range, by mode (R120, R132, R182, R185). The
request (R132): BUSY during a measurement, else staged for the next boundary work in place of an earlier
staging, whose request completes SUPERSEDED, DONE bumped once (R171). MEASURE-PORT-DELAY (R140, R141):
the checks in their order, then the channel claimed and the record made. A port index beyond 11 is out
of range. Fields of another mode take their defaults. That the baud parameter is the rate itself is the
model's (log entry 21). -/
def Obligations.PortRequestsAreChecked : Prop :=
  (∀ p : Vector Word 24,
    (portSettingsOf p ≠ none ↔ Params.n1 p 1 ≤ 3 ∧ (Params.n1 p 1 ≠ 0 →
      Params.n1 p 2 ≤ 1 ∧ Params.n1 p 11 ≤ 2 ∧ Params.n1 p 15 ≤ 2
      ∧ 1000 ≤ Params.n3 p 12 ∧ Params.n3 p 12 ≤ 999999999999
      ∧ (Params.n1 p 1 = 1 ∨ Params.n1 p 1 = 3 → Params.n2 p 5 ≠ 0)
      ∧ (Params.n1 p 1 = 2 → 1 ≤ Params.n2 p 7 ∧ Params.n2 p 7 ≤ 25000000)
      ∧ (Params.n1 p 1 = 3 → Params.n2 p 9 = 9600 ∨ Params.n2 p 9 = 19200
        ∨ Params.n2 p 9 = 38400 ∨ Params.n2 p 9 = 115200)))
    ∧ ∀ g clamped, portSettingsOf p = some (g, clamped) →
      (Params.n1 p 1 = 0 → clamped = false
        ∧ g = ⟨.off, .normal, 0, 100000, 10000000, 9600, .onBudget, 1100000, .low⟩)
      ∧ (Params.n1 p 1 ≠ 0 →
        g.polarity.num = Params.n1 p 2 ∧ g.policy.num = Params.n1 p 11
        ∧ g.level.num = Params.n1 p 15 ∧ g.limit = Params.n3 p 12
        ∧ g.compensation = max (-200000000) (min 200000000 (Params.i2 p 3)))
      ∧ (Params.n1 p 1 = 1 → g.mode = .pulse ∧ g.width = min (Params.n2 p 5) 500000000
          ∧ g.freq = 10000000 ∧ g.baud = 9600
          ∧ (clamped = true ↔ 200000000 < (Params.i2 p 3).natAbs ∨ 500000000 < Params.n2 p 5))
      ∧ (Params.n1 p 1 = 2 → g.mode = .frequency ∧ g.freq = Params.n2 p 7
          ∧ g.width = 100000 ∧ g.baud = 9600
          ∧ (clamped = true ↔ 200000000 < (Params.i2 p 3).natAbs))
      ∧ (Params.n1 p 1 = 3 → g.mode = .timecode ∧ g.width = min (Params.n2 p 5) 10000000
          ∧ g.baud = Params.n2 p 9 ∧ g.freq = 10000000
          ∧ (clamped = true ↔ 200000000 < (Params.i2 p 3).natAbs ∨ 10000000 < Params.n2 p 5)))
  ∧ (∀ (s : State) (n : Slot) (p : Vector Word 24) (q : Port), Held n 12 s →
    p = s.xu.slots[n].params → Params.w p 0 = BitVec.ofNat 16 q.val →
    ∃ t, exec .configurePort s = .next t
    ∧ (portSettingsOf p = none → t.ptu = s.ptu ∧ CompletesHeld n 5 s.tsu.label s t)
    ∧ (portSettingsOf p ≠ none → s.ptu.ports[q].measuring ≠ none →
        t.ptu = s.ptu ∧ CompletesHeld n 4 s.tsu.label s t)
    ∧ (∀ g clamped, portSettingsOf p = some (g, clamped) → s.ptu.ports[q].measuring = none →
        t.ptu = { s.ptu with
          ports := s.ptu.ports.set q
            { s.ptu.ports[q] with staged := some ⟨g, .request n, clamped⟩ } }
        ∧ ((∀ h m c, s.ptu.ports[q].staged ≠ some ⟨h, .request m, c⟩) → ParksHeld s t)
        ∧ (∀ h m c, s.ptu.ports[q].staged = some ⟨h, .request m, c⟩ →
            (s.xu.slots[m].state = .taken →
              ChangesXu (s.xu.slots.set m (doneSlot m 3 s.tsu.label s)) none [] s t
              ∧ t.xu.attn[clsDone].count = s.xu.attn[clsDone].count + 1
              ∧ t.xu.attn[clsDone].pending = true)
            ∧ (s.xu.slots[m].state ≠ .taken → ParksHeld s t)))
    ∧ KeepsAllBut [.ptu, .xu] s t)
  ∧ (∀ (s : State) (n : Slot) (p : Vector Word 24) (q : Port) (fits able : Prop), Held n 13 s →
    p = s.xu.slots[n].params → Params.w p 0 = BitVec.ofNat 16 q.val →
    (fits ↔ (1 ≤ Params.n1 p 1 ∧ Params.n1 p 1 ≤ 3) ∧ (Params.i2 p 2).natAbs ≤ 200000000
      ∧ Params.n1 p 4 ≤ 1) →
    (able ↔ s.ptu.ports[q].state = .running
      ∧ (s.ptu.ports[q].active.mode = .pulse ∨ s.ptu.ports[q].active.mode = .timecode)) →
    ∃ t, exec .measurePortDelay s = .next t
    ∧ (¬fits → t.ptu = s.ptu ∧ CompletesHeld n 5 s.tsu.label s t)
    ∧ (fits → ¬able → t.ptu = s.ptu ∧ CompletesHeld n 6 s.tsu.label s t)
    ∧ (fits → able → s.ptu.ports[q].measuring ≠ none ∨ s.ptu.ports[q].staged ≠ none →
        t.ptu = s.ptu ∧ CompletesHeld n 4 s.tsu.label s t)
    ∧ (∀ a : AuxId, fits → able → s.ptu.ports[q].measuring = none →
        s.ptu.ports[q].staged = none →
        Params.n1 p 1 = 1 + a.val ∧ s.ptu.meas[a] = none
          ∨ Params.n1 p 1 = 3 ∧ s.ptu.meas[a] = none
            ∧ (∀ b : AuxId, b < a → s.ptu.meas[b] ≠ none) →
        t.ptu = { s.ptu with
          ports := s.ptu.ports.set q { s.ptu.ports[q] with measuring := some a }
          meas := s.ptu.meas.set a (some ⟨q, Params.i2 p 2, decide (Params.n1 p 4 = 1), n, 0, none,
            Vector.replicate 8 .notTaken, []⟩) }
        ∧ ParksHeld s t)
    ∧ (fits → able → (∀ a : AuxId, Params.n1 p 1 = 1 + a.val → s.ptu.meas[a] ≠ none) →
        (Params.n1 p 1 = 3 → ∀ a : AuxId, s.ptu.meas[a] ≠ none) →
        t.ptu = s.ptu ∧ CompletesHeld n 4 s.tsu.label s t)
    ∧ KeepsAllBut [.ptu, .xu] s t)
  ∧ (∀ (s : State) (n : Slot) (c : Instr), Held n 12 s ∧ c = .configurePort
      ∨ Held n 13 s ∧ c = .measurePortDelay → 12 ≤ (Params.w s.xu.slots[n].params 0).toNat →
    ∃ t, exec c s = .next t ∧ CompletesHeld n 5 s.tsu.label s t ∧ KeepsAllBut [.xu] s t)

/-- The return windows of a delay measurement before its eighth sample: PERIOD_NOTICE opens window k or
marks R_k missing, AUX_LEADING_EDGE decides it by C − E with a step taken out, or missing when held, and
is ignored on a channel that no measurement claims, WINDOW_TIMER_EXPIRY marks it missing (R37, R142,
R143). The window ends 100,000,000 ps of timescale running after E_k: a return that finds it past is
discarded, and one that it takes gives at most 100,000,000 ps. That a notice waits while a window is
open (log entry 41), that a step comes out where the window's second has ended since (log entry 35), how
the timer is armed as the notice is taken and stands past its end (log entry 47), and that the
difference is that of the labels as they stand, also across a boundary that repeats, drops or sets one,
where the bound is not claimed (log entry 55), are the model's. -/
def Obligations.ReturnWindowsDecideSamples : Prop :=
  (∀ (s : State) (a : AuxId), s.ptu.meas[a] = none → exec (.auxLeadingEdge a) s = .next s)
  ∧ ∀ (s : State) (a : AuxId) (m : DelayMeas), s.ptu.meas[a] = some m →
    (∀ rest lead, m.notices = .period lead :: rest → m.window = none →
      (∀ e n run, lead = some (e, n) → n ≤ s.tsu.second → RunSince s.tsu n e.ps run →
        exec (.periodNotice a) s = .next
          { s with ptu := { s.ptu with meas := s.ptu.meas.set a (some { m with
              notices := rest
              k := m.k + 1
              window := some ⟨e, n, 100000000 - run⟩ }) } })
      ∧ (∀ i : Fin 8, lead = none → m.k = i.val → m.k < 7 → exec (.periodNotice a) s = .next
        { s with ptu := { s.ptu with meas := s.ptu.meas.set a (some { m with
            notices := rest
            k := m.k + 1
            samples := m.samples.set i .missing }) } }))
    ∧ (∀ (w : ReturnWindow) (i : Fin 8) (r : RoundTrip), m.window = some w → m.k = i.val + 1 →
      m.k < 8 →
      (s.tsu.hold ≠ none → r = .missing) →
      (s.tsu.hold = none → r = .value (instDiff ⟨s.tsu.label, s.tsu.frac / 125 * 125⟩ w.start
        - if w.second < s.tsu.second then s.tsu.secondStep else 0)) →
      (0 ≤ w.timer → exec (.auxLeadingEdge a) s = .next
        { s with ptu := { s.ptu with meas := s.ptu.meas.set a (some { m with
            window := none
            samples := m.samples.set i r }) } })
      ∧ (∀ v, r = .value v → 0 ≤ w.timer → s.tsu.frac < 1000000000000 →
          RunSince s.tsu w.second w.start.ps (100000000 - w.timer) →
          w.second = s.tsu.second ∧ w.start.label = s.tsu.label
            ∨ w.second + 1 = s.tsu.second ∧ w.start.label + 1 = s.tsu.label →
          v ≤ 100000000)
      ∧ (w.timer ≤ 0 → exec (.windowTimerExpiry a) s = .next
        { s with ptu := { s.ptu with meas := s.ptu.meas.set a (some { m with
            window := none
            samples := m.samples.set i .missing }) } }))
    ∧ (m.window = none → exec (.auxLeadingEdge a) s = .next s)
    ∧ (∀ w, m.window = some w →
      (w.timer < 0 → exec (.auxLeadingEdge a) s = .next s)
      ∧ (0 < w.timer → exec (.windowTimerExpiry a) s = .next s))

/-- A delay measurement's ending (R141, R144 to R147, R185): the eighth sample, decided by a return, an
expiry or a notice without a leading edge, gives the outcome, the code, the result words, the
compensation staged and DELAY-MEASURE-FAILED; MEASUREMENT_INTERRUPTED ends it INTERRUPTED, with what has
been taken. Either way the channel is released, and PORT and DONE are each bumped once (R146, R171).
That a missing sample counts as taken (log entry 40), the words of a figure that does not fit them (log
entry 15), and the difference of labels across a boundary that repeats, drops or sets one (log entry
55), are the model's. -/
def Obligations.DelayMeasurementEnds : Prop :=
  ∀ (s : State) (a : AuxId) (m : DelayMeas), s.ptu.meas[a] = some m →
    s.xu.slots[m.slot].state = .taken → s.ptu.ports[m.port].measuring = some a →
    (∀ (i : Instr) (r : RoundTrip) (z : DelayMeas) (vals : List Int) (missing : Nat) (c : Int)
      (code : Word) (bad : Bool) (mean : Option Int) (staged : Option (Int × Bool)),
      ((∃ w, m.window = some w ∧ m.k = 8
          ∧ (i = .windowTimerExpiry a ∧ w.timer ≤ 0 ∧ r = .missing
            ∨ i = .auxLeadingEdge a ∧ 0 ≤ w.timer ∧ s.tsu.hold ≠ none ∧ r = .missing
            ∨ i = .auxLeadingEdge a ∧ 0 ≤ w.timer ∧ s.tsu.hold = none
              ∧ r = .value (instDiff ⟨s.tsu.label, s.tsu.frac / 125 * 125⟩ w.start
                - if w.second < s.tsu.second then s.tsu.secondStep else 0)))
        ∨ m.window = none ∧ m.k = 7 ∧ r = .missing ∧ i = .periodNotice a
          ∧ ∃ rest, m.notices = .period none :: rest) →
      z = { m with samples := m.samples.set 7 r } →
      vals = (z.samples.toList.filterMap fun r => match r with | .value v => some v | _ => none) →
      missing = (z.samples.toList.filter (· == .missing)).length →
      c = roundDiv vals.sum vals.length / 2 + m.farEnd →
      (3 ≤ missing → code = 7) →
      (missing < 3 → (∃ x ∈ vals, ∃ y ∈ vals, 10000 < x - y) → code = 8) →
      (missing < 3 → (∀ x ∈ vals, ∀ y ∈ vals, x - y ≤ 10000) →
        code = if m.apply = true ∧ 200000000 < c.natAbs then 2 else 1) →
      bad = decide (code = 7 ∨ code = 8) →
      mean = (if bad then none else some (roundDiv vals.sum vals.length)) →
      staged = (if m.apply && !bad then
        some (max (-200000000) (min 200000000 c), decide (code = 2)) else none) →
      ∃ t, exec i s = .next t
      ∧ t.ptu.meas = s.ptu.meas.set a none
      ∧ t.ptu.ports = s.ptu.ports.set m.port { s.ptu.ports[m.port] with
          measuring := none
          staged := match staged with
            | some (x, _) => some ⟨{ s.ptu.ports[m.port].active with compensation := x },
                .measurement, false⟩
            | none => s.ptu.ports[m.port].staged }
      ∧ t.ptu.squelched = s.ptu.squelched ∧ t.ptu.delayFailed = bad
      ∧ t.xu.slots = s.xu.slots.set m.slot { s.xu.slots[m.slot] with
          state := .done
          code := code
          label := s.tsu.label
          params := t.xu.slots[m.slot].params }
      ∧ ShowsResult t.xu.slots[m.slot].params.toList (if code = 2 then 1 else code) z vals mean
          staged
      ∧ (∀ j : Fin 24, 16 ≤ j.val →
          t.xu.slots[m.slot].params[j] = s.xu.slots[m.slot].params[j])
      ∧ t.xu.attn[clsPort].count = s.xu.attn[clsPort].count + 1
      ∧ t.xu.attn[clsDone].count = s.xu.attn[clsDone].count + 1
      ∧ ChangesXu t.xu.slots s.xu.unit [clsPort] s t
      ∧ t.wires = { s.wires with
          conds := s.wires.conds ++ (if s.ptu.delayFailed = bad then [] else [⟨17, bad⟩]) }
      ∧ KeepsAllBut [.ptu, .xu, .wires] s t)
    ∧ (∀ rest, m.notices = .leftRunning :: rest → ∃ t, exec (.measurementInterrupted a) s = .next t
      ∧ t.ptu = { s.ptu with
          meas := s.ptu.meas.set a none
          ports := s.ptu.ports.set m.port { s.ptu.ports[m.port] with measuring := none } }
      ∧ t.xu.slots = s.xu.slots.set m.slot { s.xu.slots[m.slot] with
          state := .done
          code := 9
          label := s.tsu.label
          params := t.xu.slots[m.slot].params }
      ∧ ShowsResult t.xu.slots[m.slot].params.toList 0 m
          (m.samples.toList.filterMap fun r => match r with | .value v => some v | _ => none)
          none none
      ∧ (∀ j : Fin 24, 16 ≤ j.val →
          t.xu.slots[m.slot].params[j] = s.xu.slots[m.slot].params[j])
      ∧ t.xu.attn[clsPort].count = s.xu.attn[clsPort].count + 1
      ∧ t.xu.attn[clsDone].count = s.xu.attn[clsDone].count + 1
      ∧ ChangesXu t.xu.slots s.xu.unit [clsPort] s t ∧ KeepsAllBut [.ptu, .xu] s t)

/-! ### Alarms -/

/-- CONDITION_CHANGE, ALU_BOUNDARY, RAISE_DELAY_EXPIRY and CLEAR_DELAY_EXPIRY (R150 to R154): the
persistence states, and what each change does to the entry, the pins and the ALARM class; a condition
already held changes nothing. That a due expiry comes first (log entry 8), and that the count is 0 in
CLEAR and RAISED (log entry 39), are the model's, as is that a change of condition carries the current
label also ahead of a boundary that the ALU has still to take (log entry 51). -/
def Obligations.AlarmsPersist : Prop :=
  ∀ (s : State) (c : AlarmCode) (e : AlarmEntry) (enter : Bool → AlarmState → AlarmEntry),
    e = s.alu.entries[c] →
    (∀ b st, enter b st = { e with
      condition := b
      state := st
      count := 0
      raises := if st = .raised ∧ e.state ≠ .clearing ∧ e.state ≠ .raised
        then min (e.raises + 1) 65535 else e.raises
      acked := if st = .clear then false else e.acked
      stamp := e.stamp + 1
      lastChange := some s.tsu.label }) →
    ((e.state = .raising → e.count < e.raiseDelay) → (e.state = .clearing → e.count < e.clearDelay) →
      ∀ (b : Bool) (rest : List CondChange), s.wires.conds = ⟨c, b⟩ :: rest →
      ∃ t, exec (.conditionChange c) s = .next t
      ∧ (e.condition = b → t.alu = s.alu ∧ t.xu = s.xu)
      ∧ (e.condition = false → b = true → e.state = .clear → t.alu.entries = s.alu.entries.set c
          (enter true (if e.raiseDelay = 0 then .raised else .raising)))
      ∧ (e.condition = true → b = false → e.state = .raising →
          t.alu.entries = s.alu.entries.set c (enter false .clear))
      ∧ (e.condition = true → b = false → e.state = .raised → t.alu.entries = s.alu.entries.set c
          (enter false (if e.clearDelay = 0 then .clear else .clearing)))
      ∧ (e.condition = false → b = true → e.state = .clearing →
          t.alu.entries = s.alu.entries.set c (enter true .raised))
      ∧ (t.alu.entries[c].state ≠ e.state → PinsSettled t
          ∧ (e.mask = false → t.xu.attn[clsAlarm].count = s.xu.attn[clsAlarm].count + 1
            ∧ t.xu.attn[clsAlarm].pending = true))
      ∧ (e.mask = true ∨ t.alu.entries[c].state = e.state → t.xu = s.xu)
      ∧ ChangesXu s.xu.slots s.xu.unit [] s t
      ∧ t.wires = { s.wires with conds := rest } ∧ KeepsAllBut [.alu, .xu, .wires] s t)
    ∧ (e.state = .raising → e.raiseDelay ≤ e.count → s.wires.aluBnd = [] →
      ∃ t, exec (.raiseDelayExpiry c) s = .next t
      ∧ t.alu.entries = s.alu.entries.set c (enter e.condition .raised) ∧ PinsSettled t
      ∧ (e.mask = false → t.xu.attn[clsAlarm].count = s.xu.attn[clsAlarm].count + 1)
      ∧ (e.mask = true → t.xu = s.xu) ∧ ChangesXu s.xu.slots s.xu.unit [] s t
      ∧ KeepsAllBut [.alu, .xu] s t)
    ∧ (e.state = .clearing → e.clearDelay ≤ e.count → s.wires.aluBnd = [] →
      ∃ t, exec (.clearDelayExpiry c) s = .next t
      ∧ t.alu.entries = s.alu.entries.set c (enter e.condition .clear) ∧ PinsSettled t
      ∧ (e.mask = false → t.xu.attn[clsAlarm].count = s.xu.attn[clsAlarm].count + 1)
      ∧ (e.mask = true → t.xu = s.xu) ∧ ChangesXu s.xu.slots s.xu.unit [] s t
      ∧ KeepsAllBut [.alu, .xu] s t)
    ∧ (∀ (b : Boundary) (rest : List Boundary), s.wires.aluBnd = b :: rest →
      (∀ x : AlarmCode, (s.alu.entries[x].state = .raising →
          s.alu.entries[x].count < s.alu.entries[x].raiseDelay)
        ∧ (s.alu.entries[x].state = .clearing →
          s.alu.entries[x].count < s.alu.entries[x].clearDelay)) →
      ∃ t, exec .aluBoundary s = .next t
      ∧ t.alu.entries[c] = { e with count :=
          if e.state = .raising ∨ e.state = .clearing then min (e.count + 1) 255 else e.count }
      ∧ t.wires = { s.wires with aluBnd := rest } ∧ KeepsAllBut [.alu, .wires] s t)

/-- ALARM_ACK (R157): the word stored, the entry acknowledged when it equals the stamp of a RAISED or
CLEARING entry. CONFIGURE-ALARM (R155, R156, R159): severity, mask and delays replaced, the pins
settled, a wait that the new delay ends ended as any change of state (R154), ALARM bumped where the new
mask is clear; a code, or a parameter, out of range completes INVALID. That the count is 0 after such a
change (log entry 39), and that it carries the current label (log entry 51), are the model's. -/
def Obligations.AlarmsAreAcknowledgedAndConfigured : Prop :=
  (∀ (s : State) (c : AlarmCode) (v : Word), ∃ t, exec (.alarmAck c v) s = .next t
    ∧ t.alu = { s.alu with entries := s.alu.entries.set c { s.alu.entries[c] with
        ackWord := v
        acked := s.alu.entries[c].acked || (decide (v = s.alu.entries[c].stamp)
          && decide (s.alu.entries[c].state = .raised ∨ s.alu.entries[c].state = .clearing)) } }
    ∧ t.xu = { s.xu with latch := none } ∧ KeepsAllBut [.alu, .xu] s t)
  ∧ (∀ (s : State) (n : Slot) (p : Vector Word 24) (c : AlarmCode) (e : AlarmEntry)
      (v : Severity) (good : Prop), Held n 14 s → p = s.xu.slots[n].params →
    Params.w p 0 = BitVec.ofNat 16 c.val → e = s.alu.entries[c] →
    (e.state = .raising → e.count < e.raiseDelay) → (e.state = .clearing → e.count < e.clearDelay) →
    (good ↔ Params.n1 p 1 ≤ 3 ∧ Params.n1 p 2 ≤ 1 ∧ Params.n1 p 3 ≤ 255 ∧ Params.n1 p 4 ≤ 255) →
    v = (if Params.n1 p 1 = 0 then .critical else if Params.n1 p 1 = 1 then .major
      else if Params.n1 p 1 = 2 then .minor else .warning) →
    ∃ t x, exec .configureAlarm s = .next t ∧ x = t.alu.entries[c]
    ∧ (¬good → t.alu = s.alu ∧ CompletesHeld n 5 s.tsu.label s t)
    ∧ (good →
        x.severity = v ∧ (x.mask = true ↔ Params.n1 p 2 = 1) ∧ x.raiseDelay = Params.n1 p 3
        ∧ x.clearDelay = Params.n1 p 4 ∧ x.condition = e.condition ∧ x.ackWord = e.ackWord
        ∧ (∀ ended : Prop, (ended ↔ e.state = .raising ∧ Params.n1 p 3 ≤ e.count
              ∨ e.state = .clearing ∧ Params.n1 p 4 ≤ e.count) →
            (ended → e.state = .raising → x.state = .raised ∧ x.acked = e.acked
              ∧ x.raises = min (e.raises + 1) 65535)
            ∧ (ended → e.state = .clearing → x.state = .clear ∧ x.acked = false
              ∧ x.raises = e.raises)
            ∧ (ended → x.count = 0 ∧ x.stamp = e.stamp + 1 ∧ x.lastChange = some s.tsu.label)
            ∧ (ended → Params.n1 p 2 = 0 →
                t.xu.attn[clsAlarm].count = s.xu.attn[clsAlarm].count + 1
                ∧ t.xu.attn[clsAlarm].pending = true)
            ∧ (¬ended ∨ Params.n1 p 2 = 1 → t.xu.attn[clsAlarm] = s.xu.attn[clsAlarm])
            ∧ (¬ended → x.state = e.state ∧ x.count = e.count ∧ x.acked = e.acked
              ∧ x.raises = e.raises ∧ x.stamp = e.stamp ∧ x.lastChange = e.lastChange))
        ∧ PinsSettled t
        ∧ CompletesHeld n 1 s.tsu.label s t)
    ∧ (∀ y : AlarmCode, y ≠ c → t.alu.entries[y] = s.alu.entries[y])
    ∧ KeepsAllBut [.alu, .xu] s t)
  ∧ (∀ (s : State) (n : Slot), Held n 14 s → 19 ≤ (Params.w s.xu.slots[n].params 0).toNat →
    ∃ t, exec .configureAlarm s = .next t
    ∧ CompletesHeld n 5 s.tsu.label s t ∧ KeepsAllBut [.xu] s t)

/-! ### The exchange unit -/

/-- REQUEST_POSTED, REQUEST_SLOT_FREE and REQUEST_TAKE (R168 to R171, R177, R183): a FREE slot joins
the queue, a DONE slot returns to the host, other states discard the write; the free unit takes the
queue's head, and an unknown kind completes INVALID at once. -/
def Obligations.RequestsAreQueuedAndTaken : Prop :=
  ∀ (s : State) (n : Slot),
    (s.xu.slots[n].state = .free → exec (.requestPosted n) s = .next { s with xu := { s.xu with
        slots := s.xu.slots.set n { s.xu.slots[n] with state := .posted }
        queue := s.xu.queue ++ [n]
        latch := none } })
    ∧ (s.xu.slots[n].state ≠ .free →
      exec (.requestPosted n) s = .next { s with xu := { s.xu with latch := none } })
    ∧ (s.xu.slots[n].state = .done → exec (.requestSlotFree n) s = .next { s with
        xu := { s.xu with
          slots := s.xu.slots.set n { s.xu.slots[n] with state := .free }
          latch := none } })
    ∧ (s.xu.slots[n].state ≠ .done →
      exec (.requestSlotFree n) s = .next { s with xu := { s.xu with latch := none } })
    ∧ (∀ rest, s.xu.unit = none → s.xu.queue = n :: rest →
      (1 ≤ s.xu.slots[n].kind.toNat ∧ s.xu.slots[n].kind.toNat ≤ 14 →
        exec .requestTake s = .next { s with xu := { s.xu with
          slots := s.xu.slots.set n { s.xu.slots[n] with state := .taken }
          queue := rest
          unit := some n } })
      ∧ (s.xu.slots[n].kind.toNat = 0 ∨ 14 < s.xu.slots[n].kind.toNat →
        ∃ t, exec .requestTake s = .next t
        ∧ t.xu = { s.xu with
            slots := s.xu.slots.set n (doneSlot n 5 s.tsu.label s)
            queue := rest
            attn := t.xu.attn
            inta := t.xu.inta
            intb := t.xu.intb }
        ∧ (s.xu.slots[n].state ≠ .done → AttnBumped [] s t)
        ∧ t.xu.attn[clsDone].count = s.xu.attn[clsDone].count + 1
        ∧ t.xu.attn[clsDone].pending = true ∧ KeepsAllBut [.xu] s t))

/-- EPOCH_REPORT (R178, R179): page N mod 2 is written with the boundary's attributes, the handed
values and states and what stands now, under the next EPOCH count, and EPOCH is bumped. That what stands
now is read at the write, and not as the XU takes the boundary (log entry 50), and that the write may come
before an interval's end that is due (log entry 54), are the model's. -/
def Obligations.EpochReportIsWritten : Prop :=
  ∀ (s : State) (b : Boundary) (bs : List Boundary) (v : HouValues) (vs : List HouValues)
    (ps : Vector PortState 12) (pss : List (Vector PortState 12)) (k : Fin 2),
    s.wires.xuBnd = b :: bs → s.wires.xuValues = v :: vs → s.wires.xuPorts = ps :: pss →
    k.val = b.label.toNat % 2 → ∃ t r, exec .epochReport s = .next t
    ∧ t.xu.pages = s.xu.pages.set k (some r)
    ∧ r.number = t.xu.attn[clsEpoch].count ∧ r.bnd = b ∧ r.values = v ∧ r.ports = ps
    ∧ r.loop = s.lpu.state ∧ r.selected = s.qsu.selected ∧ r.freq = s.tsu.freq
    ∧ r.integral = s.lpu.integral ∧ r.lastE = s.lpu.lastE ∧ r.fill = s.hou.fill
    ∧ r.aging = currentAging s.hou
    ∧ (∀ x : Ref, r.refs[x] = (s.qsu.refs[x].state, s.qsu.refs[x].cause))
    ∧ r.critPin = s.alu.critPin ∧ r.majPin = s.alu.majPin ∧ r.minPin = s.alu.minPin
    ∧ t.xu.attn[clsEpoch].count = s.xu.attn[clsEpoch].count + 1
    ∧ t.xu.attn[clsEpoch].pending = true ∧ AttnBumped [clsEpoch] s t
    ∧ t.xu = { s.xu with
        pages := t.xu.pages
        attn := t.xu.attn
        inta := t.xu.inta
        intb := t.xu.intb }
    ∧ t.wires = { s.wires with xuBnd := bs, xuValues := vs, xuPorts := pss }
    ∧ KeepsAllBut [.xu, .wires] s t

/-- ATTENTION_ACK (R173), both orders of an acknowledgement and a bump included, and ATTENTION_ROUTE
(R174): 0, 1 and 2 route the class, any other value is discarded; the lines are settled after each, and
the record latch is released as by every host write (R177). -/
def Obligations.AttentionIsAcknowledgedAndRouted : Prop :=
  ∀ (s : State) (c : AttnClass) (v : Word),
    (∃ t, exec (.attentionAck c v) s = .next t
      ∧ t.xu.attn = s.xu.attn.set c { s.xu.attn[c] with
          ack := v
          pending := s.xu.attn[c].pending && decide (v ≠ s.xu.attn[c].count) }
      ∧ (t.xu.inta = true ↔ LineSource .inta t) ∧ (t.xu.intb = true ↔ LineSource .intb t)
      ∧ (v = s.xu.attn[c].count → (bump c t).xu.attn[c].pending = true
          ∧ (bump c t).xu.attn[c].count = s.xu.attn[c].count + 1)
      ∧ t.xu = { s.xu with attn := t.xu.attn, inta := t.xu.inta, intb := t.xu.intb, latch := none }
      ∧ KeepsAllBut [.xu] s t)
    ∧ (v = s.xu.attn[c].count → ∃ t, exec (.attentionAck c v) (bump c s) = .next t
      ∧ t.xu.attn[c].pending = true ∧ t.xu.attn[c].count = s.xu.attn[c].count + 1)
    ∧ (∃ t, exec (.attentionRoute c v) s = .next t
      ∧ (∀ r, v = (match r with | Route.none_ => 0 | .inta => 1 | .intb => 2) →
          t.xu.attn = s.xu.attn.set c { s.xu.attn[c] with route := r }
          ∧ (t.xu.inta = true ↔ LineSource .inta t) ∧ (t.xu.intb = true ↔ LineSource .intb t))
      ∧ (2 < v.toNat → t.xu = { s.xu with latch := none })
      ∧ t.xu = { s.xu with attn := t.xu.attn, inta := t.xu.inta, intb := t.xu.intb, latch := none }
      ∧ KeepsAllBut [.xu] s t)

/-- SET-TIME (R8), STEP-PHASE (R11) and SCHEDULE-LEAP (R9, R17, R183): the checks, what becomes
pending, and the request it supersedes; each completion bumps DONE once, and one for a slot that is not
TAKEN is discarded (R171). That an unknown leap form is INVALID also where the target lies
below the current label (log entry 20), and that a STEP-PHASE replaces a LOOP step whose withdrawal the
TSU has yet to take (log entry 19), are the model's. -/
def Obligations.TimeRequestsBecomePending : Prop :=
  (∀ (s : State) (n : Slot) (p : Vector Word 24), Held n 9 s → p = s.xu.slots[n].params →
    ∃ t, exec .setTime s = .next t
    ∧ (Params.w p 3 ≠ 0 → t.tsu = s.tsu ∧ CompletesHeld n 5 s.tsu.label s t)
    ∧ (Params.w p 3 = 0 → t.tsu = { s.tsu with setTime := some ⟨Params.b3 p 0, n⟩ }
        ∧ (s.tsu.setTime = none → ParksHeld s t)
        ∧ (∀ l m, s.tsu.setTime = some ⟨l, m⟩ → s.xu.slots[m].state = .taken →
            ChangesXu (s.xu.slots.set m (doneSlot m 3 s.tsu.label s)) none [] s t
            ∧ t.xu.attn[clsDone].count = s.xu.attn[clsDone].count + 1
            ∧ t.xu.attn[clsDone].pending = true)
        ∧ (∀ l m, s.tsu.setTime = some ⟨l, m⟩ → s.xu.slots[m].state ≠ .taken → ParksHeld s t))
    ∧ KeepsAllBut [.tsu, .xu] s t)
  ∧ (∀ (s : State) (n : Slot) (p : Vector Word 24) (free : Prop), Held n 10 s →
    p = s.xu.slots[n].params → (free ↔ s.lpu.state = .freeRun ∨ s.lpu.state = .holdover) →
    ∃ t, exec .stepPhase s = .next t
    ∧ (500000000000 < (Params.i3 p 0).natAbs →
        t.tsu = s.tsu ∧ CompletesHeld n 5 s.tsu.label s t)
    ∧ ((Params.i3 p 0).natAbs ≤ 500000000000 → ¬free →
        t.tsu = s.tsu ∧ CompletesHeld n 6 s.tsu.label s t)
    ∧ ((Params.i3 p 0).natAbs ≤ 500000000000 → free →
        t.tsu = { s.tsu with step := some (.host (Params.i3 p 0) n) }
        ∧ (s.tsu.step = none ∨ (∃ v, s.tsu.step = some (.loop v)) → ParksHeld s t)
        ∧ (∀ v m, s.tsu.step = some (.host v m) → s.xu.slots[m].state = .taken →
            ChangesXu (s.xu.slots.set m (doneSlot m 3 s.tsu.label s)) none [] s t
            ∧ t.xu.attn[clsDone].count = s.xu.attn[clsDone].count + 1
            ∧ t.xu.attn[clsDone].pending = true)
        ∧ (∀ v m, s.tsu.step = some (.host v m) → s.xu.slots[m].state ≠ .taken → ParksHeld s t))
    ∧ KeepsAllBut [.tsu, .xu] s t)
  ∧ (∀ (s : State) (n : Slot) (p : Vector Word 24), Held n 11 s → p = s.xu.slots[n].params →
    ∃ t, exec .scheduleLeap s = .next t
    ∧ (Params.w p 4 = 0 ∨ 3 < (Params.w p 4).toNat
        ∨ (Params.w p 4 = 1 ∨ Params.w p 4 = 2) ∧ Params.w p 3 ≠ 0 →
        t.tsu = s.tsu ∧ t.wires = s.wires ∧ CompletesHeld n 5 s.tsu.label s t)
    ∧ (Params.w p 4 = 1 ∨ Params.w p 4 = 2 → Params.w p 3 = 0 →
        (Params.b3 p 0).toNat < s.tsu.label.toNat →
        t.tsu = s.tsu ∧ t.wires = s.wires ∧ CompletesHeld n 10 s.tsu.label s t)
    ∧ (∀ k, Params.w p 4 = (match k with | LeapKind.insert => 1 | .delete => 2) →
        Params.w p 3 = 0 → s.tsu.label.toNat ≤ (Params.b3 p 0).toNat →
        t.tsu = { s.tsu with leap := some ⟨Params.b3 p 0, k, n⟩ }
        ∧ (s.tsu.leap = none → ParksHeld s t
            ∧ t.wires = { s.wires with conds := s.wires.conds ++ [⟨16, true⟩] })
        ∧ (∀ l, s.tsu.leap = some l → s.xu.slots[l.slot].state = .taken → t.wires = s.wires
            ∧ ChangesXu (s.xu.slots.set l.slot (doneSlot l.slot 3 s.tsu.label s)) none [] s t
            ∧ t.xu.attn[clsDone].count = s.xu.attn[clsDone].count + 1
            ∧ t.xu.attn[clsDone].pending = true)
        ∧ (∀ l, s.tsu.leap = some l → s.xu.slots[l.slot].state ≠ .taken → t.wires = s.wires
            ∧ ParksHeld s t))
    ∧ (Params.w p 4 = 3 → t.tsu = { s.tsu with leap := none } ∧ t.xu.slots[n].state = .done
        ∧ (s.tsu.leap = none → t.wires = s.wires ∧ CompletesHeld n 1 s.tsu.label s t)
        ∧ (s.tsu.leap ≠ none →
            t.wires = { s.wires with conds := s.wires.conds ++ [⟨16, false⟩] })
        ∧ (∀ l, s.tsu.leap = some l → l.slot ≠ n → s.xu.slots[l.slot].state = .taken →
            ChangesXu ((s.xu.slots.set l.slot (doneSlot l.slot 3 s.tsu.label s)).set n
              (doneSlot n 1 s.tsu.label s)) none [] s t
            ∧ t.xu.attn[clsDone].count = s.xu.attn[clsDone].count + 2
            ∧ t.xu.attn[clsDone].pending = true)
        ∧ (∀ l, s.tsu.leap = some l → s.xu.slots[l.slot].state ≠ .taken →
            CompletesHeld n 1 s.tsu.label s t))
    ∧ KeepsAllBut [.tsu, .xu, .wires] s t)

end
end

