-- ==== Sys2Proof/Laws/State.lean ====
section
/-! SUPPORT. One lemma per field and per named update of State: what the update sets, and what it
leaves. -/

namespace Sys2Proof.Machine

@[simp] theorem State.setTsu_tsu (s : State) (x : Tsu) : (s.setTsu x).tsu = x := rfl
@[simp] theorem State.setTsu_cap (s : State) (x : Tsu) : (s.setTsu x).cap = s.cap := rfl
@[simp] theorem State.setTsu_pku (s : State) (x : Tsu) : (s.setTsu x).pku = s.pku := rfl
@[simp] theorem State.setTsu_qsu (s : State) (x : Tsu) : (s.setTsu x).qsu = s.qsu := rfl
@[simp] theorem State.setTsu_lpu (s : State) (x : Tsu) : (s.setTsu x).lpu = s.lpu := rfl
@[simp] theorem State.setTsu_hou (s : State) (x : Tsu) : (s.setTsu x).hou = s.hou := rfl
@[simp] theorem State.setTsu_ptu (s : State) (x : Tsu) : (s.setTsu x).ptu = s.ptu := rfl
@[simp] theorem State.setTsu_alu (s : State) (x : Tsu) : (s.setTsu x).alu = s.alu := rfl
@[simp] theorem State.setTsu_xu (s : State) (x : Tsu) : (s.setTsu x).xu = s.xu := rfl
@[simp] theorem State.setTsu_wires (s : State) (x : Tsu) : (s.setTsu x).wires = s.wires := rfl
@[simp] theorem State.setTsu_readData (s : State) (x : Tsu) : (s.setTsu x).readData = s.readData := rfl
@[simp] theorem State.setTsu_pending (s : State) (x : Tsu) : (s.setTsu x).pending = s.pending := rfl

@[simp] theorem State.setCap_tsu (s : State) (x : Cap) : (s.setCap x).tsu = s.tsu := rfl
@[simp] theorem State.setCap_cap (s : State) (x : Cap) : (s.setCap x).cap = x := rfl
@[simp] theorem State.setCap_pku (s : State) (x : Cap) : (s.setCap x).pku = s.pku := rfl
@[simp] theorem State.setCap_qsu (s : State) (x : Cap) : (s.setCap x).qsu = s.qsu := rfl
@[simp] theorem State.setCap_lpu (s : State) (x : Cap) : (s.setCap x).lpu = s.lpu := rfl
@[simp] theorem State.setCap_hou (s : State) (x : Cap) : (s.setCap x).hou = s.hou := rfl
@[simp] theorem State.setCap_ptu (s : State) (x : Cap) : (s.setCap x).ptu = s.ptu := rfl
@[simp] theorem State.setCap_alu (s : State) (x : Cap) : (s.setCap x).alu = s.alu := rfl
@[simp] theorem State.setCap_xu (s : State) (x : Cap) : (s.setCap x).xu = s.xu := rfl
@[simp] theorem State.setCap_wires (s : State) (x : Cap) : (s.setCap x).wires = s.wires := rfl
@[simp] theorem State.setCap_readData (s : State) (x : Cap) : (s.setCap x).readData = s.readData := rfl
@[simp] theorem State.setCap_pending (s : State) (x : Cap) : (s.setCap x).pending = s.pending := rfl

@[simp] theorem State.setPku_tsu (s : State) (x : Pku) : (s.setPku x).tsu = s.tsu := rfl
@[simp] theorem State.setPku_cap (s : State) (x : Pku) : (s.setPku x).cap = s.cap := rfl
@[simp] theorem State.setPku_pku (s : State) (x : Pku) : (s.setPku x).pku = x := rfl
@[simp] theorem State.setPku_qsu (s : State) (x : Pku) : (s.setPku x).qsu = s.qsu := rfl
@[simp] theorem State.setPku_lpu (s : State) (x : Pku) : (s.setPku x).lpu = s.lpu := rfl
@[simp] theorem State.setPku_hou (s : State) (x : Pku) : (s.setPku x).hou = s.hou := rfl
@[simp] theorem State.setPku_ptu (s : State) (x : Pku) : (s.setPku x).ptu = s.ptu := rfl
@[simp] theorem State.setPku_alu (s : State) (x : Pku) : (s.setPku x).alu = s.alu := rfl
@[simp] theorem State.setPku_xu (s : State) (x : Pku) : (s.setPku x).xu = s.xu := rfl
@[simp] theorem State.setPku_wires (s : State) (x : Pku) : (s.setPku x).wires = s.wires := rfl
@[simp] theorem State.setPku_readData (s : State) (x : Pku) : (s.setPku x).readData = s.readData := rfl
@[simp] theorem State.setPku_pending (s : State) (x : Pku) : (s.setPku x).pending = s.pending := rfl

@[simp] theorem State.setQsu_tsu (s : State) (x : Qsu) : (s.setQsu x).tsu = s.tsu := rfl
@[simp] theorem State.setQsu_cap (s : State) (x : Qsu) : (s.setQsu x).cap = s.cap := rfl
@[simp] theorem State.setQsu_pku (s : State) (x : Qsu) : (s.setQsu x).pku = s.pku := rfl
@[simp] theorem State.setQsu_qsu (s : State) (x : Qsu) : (s.setQsu x).qsu = x := rfl
@[simp] theorem State.setQsu_lpu (s : State) (x : Qsu) : (s.setQsu x).lpu = s.lpu := rfl
@[simp] theorem State.setQsu_hou (s : State) (x : Qsu) : (s.setQsu x).hou = s.hou := rfl
@[simp] theorem State.setQsu_ptu (s : State) (x : Qsu) : (s.setQsu x).ptu = s.ptu := rfl
@[simp] theorem State.setQsu_alu (s : State) (x : Qsu) : (s.setQsu x).alu = s.alu := rfl
@[simp] theorem State.setQsu_xu (s : State) (x : Qsu) : (s.setQsu x).xu = s.xu := rfl
@[simp] theorem State.setQsu_wires (s : State) (x : Qsu) : (s.setQsu x).wires = s.wires := rfl
@[simp] theorem State.setQsu_readData (s : State) (x : Qsu) : (s.setQsu x).readData = s.readData := rfl
@[simp] theorem State.setQsu_pending (s : State) (x : Qsu) : (s.setQsu x).pending = s.pending := rfl

@[simp] theorem State.setLpu_tsu (s : State) (x : Lpu) : (s.setLpu x).tsu = s.tsu := rfl
@[simp] theorem State.setLpu_cap (s : State) (x : Lpu) : (s.setLpu x).cap = s.cap := rfl
@[simp] theorem State.setLpu_pku (s : State) (x : Lpu) : (s.setLpu x).pku = s.pku := rfl
@[simp] theorem State.setLpu_qsu (s : State) (x : Lpu) : (s.setLpu x).qsu = s.qsu := rfl
@[simp] theorem State.setLpu_lpu (s : State) (x : Lpu) : (s.setLpu x).lpu = x := rfl
@[simp] theorem State.setLpu_hou (s : State) (x : Lpu) : (s.setLpu x).hou = s.hou := rfl
@[simp] theorem State.setLpu_ptu (s : State) (x : Lpu) : (s.setLpu x).ptu = s.ptu := rfl
@[simp] theorem State.setLpu_alu (s : State) (x : Lpu) : (s.setLpu x).alu = s.alu := rfl
@[simp] theorem State.setLpu_xu (s : State) (x : Lpu) : (s.setLpu x).xu = s.xu := rfl
@[simp] theorem State.setLpu_wires (s : State) (x : Lpu) : (s.setLpu x).wires = s.wires := rfl
@[simp] theorem State.setLpu_readData (s : State) (x : Lpu) : (s.setLpu x).readData = s.readData := rfl
@[simp] theorem State.setLpu_pending (s : State) (x : Lpu) : (s.setLpu x).pending = s.pending := rfl

@[simp] theorem State.setHou_tsu (s : State) (x : Hou) : (s.setHou x).tsu = s.tsu := rfl
@[simp] theorem State.setHou_cap (s : State) (x : Hou) : (s.setHou x).cap = s.cap := rfl
@[simp] theorem State.setHou_pku (s : State) (x : Hou) : (s.setHou x).pku = s.pku := rfl
@[simp] theorem State.setHou_qsu (s : State) (x : Hou) : (s.setHou x).qsu = s.qsu := rfl
@[simp] theorem State.setHou_lpu (s : State) (x : Hou) : (s.setHou x).lpu = s.lpu := rfl
@[simp] theorem State.setHou_hou (s : State) (x : Hou) : (s.setHou x).hou = x := rfl
@[simp] theorem State.setHou_ptu (s : State) (x : Hou) : (s.setHou x).ptu = s.ptu := rfl
@[simp] theorem State.setHou_alu (s : State) (x : Hou) : (s.setHou x).alu = s.alu := rfl
@[simp] theorem State.setHou_xu (s : State) (x : Hou) : (s.setHou x).xu = s.xu := rfl
@[simp] theorem State.setHou_wires (s : State) (x : Hou) : (s.setHou x).wires = s.wires := rfl
@[simp] theorem State.setHou_readData (s : State) (x : Hou) : (s.setHou x).readData = s.readData := rfl
@[simp] theorem State.setHou_pending (s : State) (x : Hou) : (s.setHou x).pending = s.pending := rfl

@[simp] theorem State.setPtu_tsu (s : State) (x : Ptu) : (s.setPtu x).tsu = s.tsu := rfl
@[simp] theorem State.setPtu_cap (s : State) (x : Ptu) : (s.setPtu x).cap = s.cap := rfl
@[simp] theorem State.setPtu_pku (s : State) (x : Ptu) : (s.setPtu x).pku = s.pku := rfl
@[simp] theorem State.setPtu_qsu (s : State) (x : Ptu) : (s.setPtu x).qsu = s.qsu := rfl
@[simp] theorem State.setPtu_lpu (s : State) (x : Ptu) : (s.setPtu x).lpu = s.lpu := rfl
@[simp] theorem State.setPtu_hou (s : State) (x : Ptu) : (s.setPtu x).hou = s.hou := rfl
@[simp] theorem State.setPtu_ptu (s : State) (x : Ptu) : (s.setPtu x).ptu = x := rfl
@[simp] theorem State.setPtu_alu (s : State) (x : Ptu) : (s.setPtu x).alu = s.alu := rfl
@[simp] theorem State.setPtu_xu (s : State) (x : Ptu) : (s.setPtu x).xu = s.xu := rfl
@[simp] theorem State.setPtu_wires (s : State) (x : Ptu) : (s.setPtu x).wires = s.wires := rfl
@[simp] theorem State.setPtu_readData (s : State) (x : Ptu) : (s.setPtu x).readData = s.readData := rfl
@[simp] theorem State.setPtu_pending (s : State) (x : Ptu) : (s.setPtu x).pending = s.pending := rfl

@[simp] theorem State.setAlu_tsu (s : State) (x : Alu) : (s.setAlu x).tsu = s.tsu := rfl
@[simp] theorem State.setAlu_cap (s : State) (x : Alu) : (s.setAlu x).cap = s.cap := rfl
@[simp] theorem State.setAlu_pku (s : State) (x : Alu) : (s.setAlu x).pku = s.pku := rfl
@[simp] theorem State.setAlu_qsu (s : State) (x : Alu) : (s.setAlu x).qsu = s.qsu := rfl
@[simp] theorem State.setAlu_lpu (s : State) (x : Alu) : (s.setAlu x).lpu = s.lpu := rfl
@[simp] theorem State.setAlu_hou (s : State) (x : Alu) : (s.setAlu x).hou = s.hou := rfl
@[simp] theorem State.setAlu_ptu (s : State) (x : Alu) : (s.setAlu x).ptu = s.ptu := rfl
@[simp] theorem State.setAlu_alu (s : State) (x : Alu) : (s.setAlu x).alu = x := rfl
@[simp] theorem State.setAlu_xu (s : State) (x : Alu) : (s.setAlu x).xu = s.xu := rfl
@[simp] theorem State.setAlu_wires (s : State) (x : Alu) : (s.setAlu x).wires = s.wires := rfl
@[simp] theorem State.setAlu_readData (s : State) (x : Alu) : (s.setAlu x).readData = s.readData := rfl
@[simp] theorem State.setAlu_pending (s : State) (x : Alu) : (s.setAlu x).pending = s.pending := rfl

@[simp] theorem State.setXu_tsu (s : State) (x : Xu) : (s.setXu x).tsu = s.tsu := rfl
@[simp] theorem State.setXu_cap (s : State) (x : Xu) : (s.setXu x).cap = s.cap := rfl
@[simp] theorem State.setXu_pku (s : State) (x : Xu) : (s.setXu x).pku = s.pku := rfl
@[simp] theorem State.setXu_qsu (s : State) (x : Xu) : (s.setXu x).qsu = s.qsu := rfl
@[simp] theorem State.setXu_lpu (s : State) (x : Xu) : (s.setXu x).lpu = s.lpu := rfl
@[simp] theorem State.setXu_hou (s : State) (x : Xu) : (s.setXu x).hou = s.hou := rfl
@[simp] theorem State.setXu_ptu (s : State) (x : Xu) : (s.setXu x).ptu = s.ptu := rfl
@[simp] theorem State.setXu_alu (s : State) (x : Xu) : (s.setXu x).alu = s.alu := rfl
@[simp] theorem State.setXu_xu (s : State) (x : Xu) : (s.setXu x).xu = x := rfl
@[simp] theorem State.setXu_wires (s : State) (x : Xu) : (s.setXu x).wires = s.wires := rfl
@[simp] theorem State.setXu_readData (s : State) (x : Xu) : (s.setXu x).readData = s.readData := rfl
@[simp] theorem State.setXu_pending (s : State) (x : Xu) : (s.setXu x).pending = s.pending := rfl

@[simp] theorem State.setWires_tsu (s : State) (x : Wires) : (s.setWires x).tsu = s.tsu := rfl
@[simp] theorem State.setWires_cap (s : State) (x : Wires) : (s.setWires x).cap = s.cap := rfl
@[simp] theorem State.setWires_pku (s : State) (x : Wires) : (s.setWires x).pku = s.pku := rfl
@[simp] theorem State.setWires_qsu (s : State) (x : Wires) : (s.setWires x).qsu = s.qsu := rfl
@[simp] theorem State.setWires_lpu (s : State) (x : Wires) : (s.setWires x).lpu = s.lpu := rfl
@[simp] theorem State.setWires_hou (s : State) (x : Wires) : (s.setWires x).hou = s.hou := rfl
@[simp] theorem State.setWires_ptu (s : State) (x : Wires) : (s.setWires x).ptu = s.ptu := rfl
@[simp] theorem State.setWires_alu (s : State) (x : Wires) : (s.setWires x).alu = s.alu := rfl
@[simp] theorem State.setWires_xu (s : State) (x : Wires) : (s.setWires x).xu = s.xu := rfl
@[simp] theorem State.setWires_wires (s : State) (x : Wires) : (s.setWires x).wires = x := rfl
@[simp] theorem State.setWires_readData (s : State) (x : Wires) : (s.setWires x).readData = s.readData := rfl
@[simp] theorem State.setWires_pending (s : State) (x : Wires) : (s.setWires x).pending = s.pending := rfl

@[simp] theorem State.setReadData_tsu (s : State) (x : Word) : (s.setReadData x).tsu = s.tsu := rfl
@[simp] theorem State.setReadData_cap (s : State) (x : Word) : (s.setReadData x).cap = s.cap := rfl
@[simp] theorem State.setReadData_pku (s : State) (x : Word) : (s.setReadData x).pku = s.pku := rfl
@[simp] theorem State.setReadData_qsu (s : State) (x : Word) : (s.setReadData x).qsu = s.qsu := rfl
@[simp] theorem State.setReadData_lpu (s : State) (x : Word) : (s.setReadData x).lpu = s.lpu := rfl
@[simp] theorem State.setReadData_hou (s : State) (x : Word) : (s.setReadData x).hou = s.hou := rfl
@[simp] theorem State.setReadData_ptu (s : State) (x : Word) : (s.setReadData x).ptu = s.ptu := rfl
@[simp] theorem State.setReadData_alu (s : State) (x : Word) : (s.setReadData x).alu = s.alu := rfl
@[simp] theorem State.setReadData_xu (s : State) (x : Word) : (s.setReadData x).xu = s.xu := rfl
@[simp] theorem State.setReadData_wires (s : State) (x : Word) : (s.setReadData x).wires = s.wires := rfl
@[simp] theorem State.setReadData_readData (s : State) (x : Word) : (s.setReadData x).readData = x := rfl
@[simp] theorem State.setReadData_pending (s : State) (x : Word) : (s.setReadData x).pending = s.pending := rfl

@[simp] theorem State.withPending_tsu (s : State) (x : List Instr) : (s.withPending x).tsu = s.tsu := rfl
@[simp] theorem State.withPending_cap (s : State) (x : List Instr) : (s.withPending x).cap = s.cap := rfl
@[simp] theorem State.withPending_pku (s : State) (x : List Instr) : (s.withPending x).pku = s.pku := rfl
@[simp] theorem State.withPending_qsu (s : State) (x : List Instr) : (s.withPending x).qsu = s.qsu := rfl
@[simp] theorem State.withPending_lpu (s : State) (x : List Instr) : (s.withPending x).lpu = s.lpu := rfl
@[simp] theorem State.withPending_hou (s : State) (x : List Instr) : (s.withPending x).hou = s.hou := rfl
@[simp] theorem State.withPending_ptu (s : State) (x : List Instr) : (s.withPending x).ptu = s.ptu := rfl
@[simp] theorem State.withPending_alu (s : State) (x : List Instr) : (s.withPending x).alu = s.alu := rfl
@[simp] theorem State.withPending_xu (s : State) (x : List Instr) : (s.withPending x).xu = s.xu := rfl
@[simp] theorem State.withPending_wires (s : State) (x : List Instr) : (s.withPending x).wires = s.wires := rfl
@[simp] theorem State.withPending_readData (s : State) (x : List Instr) : (s.withPending x).readData = s.readData := rfl
@[simp] theorem State.withPending_pending (s : State) (x : List Instr) : (s.withPending x).pending = x := rfl

end Sys2Proof.Machine
end

