-- ==== Sys2Proof/Laws/Frames.lean ====
section
/-! SUPPORT. Frames of the shared operations: the parts of State each one leaves as they were. -/

namespace Sys2Proof.Machine

@[simp] theorem State.updPort_tsu (s : State) (p : Port) (f : PortEntry → PortEntry) :
    (s.updPort p f).tsu = s.tsu := rfl
@[simp] theorem State.updPort_cap (s : State) (p : Port) (f : PortEntry → PortEntry) :
    (s.updPort p f).cap = s.cap := rfl
@[simp] theorem State.updPort_pku (s : State) (p : Port) (f : PortEntry → PortEntry) :
    (s.updPort p f).pku = s.pku := rfl
@[simp] theorem State.updPort_qsu (s : State) (p : Port) (f : PortEntry → PortEntry) :
    (s.updPort p f).qsu = s.qsu := rfl
@[simp] theorem State.updPort_lpu (s : State) (p : Port) (f : PortEntry → PortEntry) :
    (s.updPort p f).lpu = s.lpu := rfl
@[simp] theorem State.updPort_hou (s : State) (p : Port) (f : PortEntry → PortEntry) :
    (s.updPort p f).hou = s.hou := rfl
@[simp] theorem State.updPort_alu (s : State) (p : Port) (f : PortEntry → PortEntry) :
    (s.updPort p f).alu = s.alu := rfl
@[simp] theorem State.updPort_xu (s : State) (p : Port) (f : PortEntry → PortEntry) :
    (s.updPort p f).xu = s.xu := rfl
@[simp] theorem State.updPort_wires (s : State) (p : Port) (f : PortEntry → PortEntry) :
    (s.updPort p f).wires = s.wires := rfl
@[simp] theorem State.updPort_readData (s : State) (p : Port) (f : PortEntry → PortEntry) :
    (s.updPort p f).readData = s.readData := rfl
@[simp] theorem State.updPort_pending (s : State) (p : Port) (f : PortEntry → PortEntry) :
    (s.updPort p f).pending = s.pending := rfl

@[simp] theorem State.setMeas_tsu (s : State) (a : AuxId) (m : Option DelayMeas) :
    (s.setMeas a m).tsu = s.tsu := rfl
@[simp] theorem State.setMeas_cap (s : State) (a : AuxId) (m : Option DelayMeas) :
    (s.setMeas a m).cap = s.cap := rfl
@[simp] theorem State.setMeas_pku (s : State) (a : AuxId) (m : Option DelayMeas) :
    (s.setMeas a m).pku = s.pku := rfl
@[simp] theorem State.setMeas_qsu (s : State) (a : AuxId) (m : Option DelayMeas) :
    (s.setMeas a m).qsu = s.qsu := rfl
@[simp] theorem State.setMeas_lpu (s : State) (a : AuxId) (m : Option DelayMeas) :
    (s.setMeas a m).lpu = s.lpu := rfl
@[simp] theorem State.setMeas_hou (s : State) (a : AuxId) (m : Option DelayMeas) :
    (s.setMeas a m).hou = s.hou := rfl
@[simp] theorem State.setMeas_alu (s : State) (a : AuxId) (m : Option DelayMeas) :
    (s.setMeas a m).alu = s.alu := rfl
@[simp] theorem State.setMeas_xu (s : State) (a : AuxId) (m : Option DelayMeas) :
    (s.setMeas a m).xu = s.xu := rfl
@[simp] theorem State.setMeas_wires (s : State) (a : AuxId) (m : Option DelayMeas) :
    (s.setMeas a m).wires = s.wires := rfl
@[simp] theorem State.setMeas_readData (s : State) (a : AuxId) (m : Option DelayMeas) :
    (s.setMeas a m).readData = s.readData := rfl
@[simp] theorem State.setMeas_pending (s : State) (a : AuxId) (m : Option DelayMeas) :
    (s.setMeas a m).pending = s.pending := rfl

@[simp] theorem State.updDiv_tsu (s : State) (d : DividerId) (f : Divider → Divider) :
    (s.updDiv d f).tsu = s.tsu := rfl
@[simp] theorem State.updDiv_pku (s : State) (d : DividerId) (f : Divider → Divider) :
    (s.updDiv d f).pku = s.pku := rfl
@[simp] theorem State.updDiv_qsu (s : State) (d : DividerId) (f : Divider → Divider) :
    (s.updDiv d f).qsu = s.qsu := rfl
@[simp] theorem State.updDiv_lpu (s : State) (d : DividerId) (f : Divider → Divider) :
    (s.updDiv d f).lpu = s.lpu := rfl
@[simp] theorem State.updDiv_hou (s : State) (d : DividerId) (f : Divider → Divider) :
    (s.updDiv d f).hou = s.hou := rfl
@[simp] theorem State.updDiv_ptu (s : State) (d : DividerId) (f : Divider → Divider) :
    (s.updDiv d f).ptu = s.ptu := rfl
@[simp] theorem State.updDiv_alu (s : State) (d : DividerId) (f : Divider → Divider) :
    (s.updDiv d f).alu = s.alu := rfl
@[simp] theorem State.updDiv_xu (s : State) (d : DividerId) (f : Divider → Divider) :
    (s.updDiv d f).xu = s.xu := rfl
@[simp] theorem State.updDiv_wires (s : State) (d : DividerId) (f : Divider → Divider) :
    (s.updDiv d f).wires = s.wires := rfl
@[simp] theorem State.updDiv_readData (s : State) (d : DividerId) (f : Divider → Divider) :
    (s.updDiv d f).readData = s.readData := rfl
@[simp] theorem State.updDiv_pending (s : State) (d : DividerId) (f : Divider → Divider) :
    (s.updDiv d f).pending = s.pending := rfl

@[simp] theorem State.updPps_tsu (s : State) (c : PpsChannelId) (f : PpsChannel → PpsChannel) :
    (s.updPps c f).tsu = s.tsu := rfl
@[simp] theorem State.updPps_pku (s : State) (c : PpsChannelId) (f : PpsChannel → PpsChannel) :
    (s.updPps c f).pku = s.pku := rfl
@[simp] theorem State.updPps_qsu (s : State) (c : PpsChannelId) (f : PpsChannel → PpsChannel) :
    (s.updPps c f).qsu = s.qsu := rfl
@[simp] theorem State.updPps_lpu (s : State) (c : PpsChannelId) (f : PpsChannel → PpsChannel) :
    (s.updPps c f).lpu = s.lpu := rfl
@[simp] theorem State.updPps_hou (s : State) (c : PpsChannelId) (f : PpsChannel → PpsChannel) :
    (s.updPps c f).hou = s.hou := rfl
@[simp] theorem State.updPps_ptu (s : State) (c : PpsChannelId) (f : PpsChannel → PpsChannel) :
    (s.updPps c f).ptu = s.ptu := rfl
@[simp] theorem State.updPps_alu (s : State) (c : PpsChannelId) (f : PpsChannel → PpsChannel) :
    (s.updPps c f).alu = s.alu := rfl
@[simp] theorem State.updPps_xu (s : State) (c : PpsChannelId) (f : PpsChannel → PpsChannel) :
    (s.updPps c f).xu = s.xu := rfl
@[simp] theorem State.updPps_wires (s : State) (c : PpsChannelId) (f : PpsChannel → PpsChannel) :
    (s.updPps c f).wires = s.wires := rfl
@[simp] theorem State.updPps_readData (s : State) (c : PpsChannelId) (f : PpsChannel → PpsChannel) :
    (s.updPps c f).readData = s.readData := rfl
@[simp] theorem State.updPps_pending (s : State) (c : PpsChannelId) (f : PpsChannel → PpsChannel) :
    (s.updPps c f).pending = s.pending := rfl

@[simp] theorem State.updPacket_tsu (s : State) (k : PacketId) (f : PacketRef → PacketRef) :
    (s.updPacket k f).tsu = s.tsu := rfl
@[simp] theorem State.updPacket_cap (s : State) (k : PacketId) (f : PacketRef → PacketRef) :
    (s.updPacket k f).cap = s.cap := rfl
@[simp] theorem State.updPacket_qsu (s : State) (k : PacketId) (f : PacketRef → PacketRef) :
    (s.updPacket k f).qsu = s.qsu := rfl
@[simp] theorem State.updPacket_lpu (s : State) (k : PacketId) (f : PacketRef → PacketRef) :
    (s.updPacket k f).lpu = s.lpu := rfl
@[simp] theorem State.updPacket_hou (s : State) (k : PacketId) (f : PacketRef → PacketRef) :
    (s.updPacket k f).hou = s.hou := rfl
@[simp] theorem State.updPacket_ptu (s : State) (k : PacketId) (f : PacketRef → PacketRef) :
    (s.updPacket k f).ptu = s.ptu := rfl
@[simp] theorem State.updPacket_alu (s : State) (k : PacketId) (f : PacketRef → PacketRef) :
    (s.updPacket k f).alu = s.alu := rfl
@[simp] theorem State.updPacket_xu (s : State) (k : PacketId) (f : PacketRef → PacketRef) :
    (s.updPacket k f).xu = s.xu := rfl
@[simp] theorem State.updPacket_wires (s : State) (k : PacketId) (f : PacketRef → PacketRef) :
    (s.updPacket k f).wires = s.wires := rfl
@[simp] theorem State.updPacket_readData (s : State) (k : PacketId) (f : PacketRef → PacketRef) :
    (s.updPacket k f).readData = s.readData := rfl
@[simp] theorem State.updPacket_pending (s : State) (k : PacketId) (f : PacketRef → PacketRef) :
    (s.updPacket k f).pending = s.pending := rfl

@[simp] theorem State.updRef_tsu (s : State) (r : Ref) (f : RefEntry → RefEntry) :
    (s.updRef r f).tsu = s.tsu := rfl
@[simp] theorem State.updRef_cap (s : State) (r : Ref) (f : RefEntry → RefEntry) :
    (s.updRef r f).cap = s.cap := rfl
@[simp] theorem State.updRef_pku (s : State) (r : Ref) (f : RefEntry → RefEntry) :
    (s.updRef r f).pku = s.pku := rfl
@[simp] theorem State.updRef_lpu (s : State) (r : Ref) (f : RefEntry → RefEntry) :
    (s.updRef r f).lpu = s.lpu := rfl
@[simp] theorem State.updRef_hou (s : State) (r : Ref) (f : RefEntry → RefEntry) :
    (s.updRef r f).hou = s.hou := rfl
@[simp] theorem State.updRef_ptu (s : State) (r : Ref) (f : RefEntry → RefEntry) :
    (s.updRef r f).ptu = s.ptu := rfl
@[simp] theorem State.updRef_alu (s : State) (r : Ref) (f : RefEntry → RefEntry) :
    (s.updRef r f).alu = s.alu := rfl
@[simp] theorem State.updRef_xu (s : State) (r : Ref) (f : RefEntry → RefEntry) :
    (s.updRef r f).xu = s.xu := rfl
@[simp] theorem State.updRef_wires (s : State) (r : Ref) (f : RefEntry → RefEntry) :
    (s.updRef r f).wires = s.wires := rfl
@[simp] theorem State.updRef_readData (s : State) (r : Ref) (f : RefEntry → RefEntry) :
    (s.updRef r f).readData = s.readData := rfl
@[simp] theorem State.updRef_pending (s : State) (r : Ref) (f : RefEntry → RefEntry) :
    (s.updRef r f).pending = s.pending := rfl

@[simp] theorem State.updAlarm_tsu (s : State) (c : AlarmCode) (f : AlarmEntry → AlarmEntry) :
    (s.updAlarm c f).tsu = s.tsu := rfl
@[simp] theorem State.updAlarm_cap (s : State) (c : AlarmCode) (f : AlarmEntry → AlarmEntry) :
    (s.updAlarm c f).cap = s.cap := rfl
@[simp] theorem State.updAlarm_pku (s : State) (c : AlarmCode) (f : AlarmEntry → AlarmEntry) :
    (s.updAlarm c f).pku = s.pku := rfl
@[simp] theorem State.updAlarm_qsu (s : State) (c : AlarmCode) (f : AlarmEntry → AlarmEntry) :
    (s.updAlarm c f).qsu = s.qsu := rfl
@[simp] theorem State.updAlarm_lpu (s : State) (c : AlarmCode) (f : AlarmEntry → AlarmEntry) :
    (s.updAlarm c f).lpu = s.lpu := rfl
@[simp] theorem State.updAlarm_hou (s : State) (c : AlarmCode) (f : AlarmEntry → AlarmEntry) :
    (s.updAlarm c f).hou = s.hou := rfl
@[simp] theorem State.updAlarm_ptu (s : State) (c : AlarmCode) (f : AlarmEntry → AlarmEntry) :
    (s.updAlarm c f).ptu = s.ptu := rfl
@[simp] theorem State.updAlarm_xu (s : State) (c : AlarmCode) (f : AlarmEntry → AlarmEntry) :
    (s.updAlarm c f).xu = s.xu := rfl
@[simp] theorem State.updAlarm_wires (s : State) (c : AlarmCode) (f : AlarmEntry → AlarmEntry) :
    (s.updAlarm c f).wires = s.wires := rfl
@[simp] theorem State.updAlarm_readData (s : State) (c : AlarmCode) (f : AlarmEntry → AlarmEntry) :
    (s.updAlarm c f).readData = s.readData := rfl
@[simp] theorem State.updAlarm_pending (s : State) (c : AlarmCode) (f : AlarmEntry → AlarmEntry) :
    (s.updAlarm c f).pending = s.pending := rfl

@[simp] theorem State.updSlot_tsu (s : State) (n : Slot) (f : RequestSlot → RequestSlot) :
    (s.updSlot n f).tsu = s.tsu := rfl
@[simp] theorem State.updSlot_cap (s : State) (n : Slot) (f : RequestSlot → RequestSlot) :
    (s.updSlot n f).cap = s.cap := rfl
@[simp] theorem State.updSlot_pku (s : State) (n : Slot) (f : RequestSlot → RequestSlot) :
    (s.updSlot n f).pku = s.pku := rfl
@[simp] theorem State.updSlot_qsu (s : State) (n : Slot) (f : RequestSlot → RequestSlot) :
    (s.updSlot n f).qsu = s.qsu := rfl
@[simp] theorem State.updSlot_lpu (s : State) (n : Slot) (f : RequestSlot → RequestSlot) :
    (s.updSlot n f).lpu = s.lpu := rfl
@[simp] theorem State.updSlot_hou (s : State) (n : Slot) (f : RequestSlot → RequestSlot) :
    (s.updSlot n f).hou = s.hou := rfl
@[simp] theorem State.updSlot_ptu (s : State) (n : Slot) (f : RequestSlot → RequestSlot) :
    (s.updSlot n f).ptu = s.ptu := rfl
@[simp] theorem State.updSlot_alu (s : State) (n : Slot) (f : RequestSlot → RequestSlot) :
    (s.updSlot n f).alu = s.alu := rfl
@[simp] theorem State.updSlot_wires (s : State) (n : Slot) (f : RequestSlot → RequestSlot) :
    (s.updSlot n f).wires = s.wires := rfl
@[simp] theorem State.updSlot_readData (s : State) (n : Slot) (f : RequestSlot → RequestSlot) :
    (s.updSlot n f).readData = s.readData := rfl
@[simp] theorem State.updSlot_pending (s : State) (n : Slot) (f : RequestSlot → RequestSlot) :
    (s.updSlot n f).pending = s.pending := rfl

@[simp] theorem bump_tsu (s : State) (c : AttnClass) :
    (bump c s).tsu = s.tsu := rfl
@[simp] theorem bump_cap (s : State) (c : AttnClass) :
    (bump c s).cap = s.cap := rfl
@[simp] theorem bump_pku (s : State) (c : AttnClass) :
    (bump c s).pku = s.pku := rfl
@[simp] theorem bump_qsu (s : State) (c : AttnClass) :
    (bump c s).qsu = s.qsu := rfl
@[simp] theorem bump_lpu (s : State) (c : AttnClass) :
    (bump c s).lpu = s.lpu := rfl
@[simp] theorem bump_hou (s : State) (c : AttnClass) :
    (bump c s).hou = s.hou := rfl
@[simp] theorem bump_ptu (s : State) (c : AttnClass) :
    (bump c s).ptu = s.ptu := rfl
@[simp] theorem bump_alu (s : State) (c : AttnClass) :
    (bump c s).alu = s.alu := rfl
@[simp] theorem bump_wires (s : State) (c : AttnClass) :
    (bump c s).wires = s.wires := rfl
@[simp] theorem bump_readData (s : State) (c : AttnClass) :
    (bump c s).readData = s.readData := rfl
@[simp] theorem bump_pending (s : State) (c : AttnClass) :
    (bump c s).pending = s.pending := rfl

@[simp] theorem handCond_tsu (s : State) (c : AlarmCode) (b : Bool) :
    (handCond c b s).tsu = s.tsu := rfl
@[simp] theorem handCond_cap (s : State) (c : AlarmCode) (b : Bool) :
    (handCond c b s).cap = s.cap := rfl
@[simp] theorem handCond_pku (s : State) (c : AlarmCode) (b : Bool) :
    (handCond c b s).pku = s.pku := rfl
@[simp] theorem handCond_qsu (s : State) (c : AlarmCode) (b : Bool) :
    (handCond c b s).qsu = s.qsu := rfl
@[simp] theorem handCond_lpu (s : State) (c : AlarmCode) (b : Bool) :
    (handCond c b s).lpu = s.lpu := rfl
@[simp] theorem handCond_hou (s : State) (c : AlarmCode) (b : Bool) :
    (handCond c b s).hou = s.hou := rfl
@[simp] theorem handCond_ptu (s : State) (c : AlarmCode) (b : Bool) :
    (handCond c b s).ptu = s.ptu := rfl
@[simp] theorem handCond_alu (s : State) (c : AlarmCode) (b : Bool) :
    (handCond c b s).alu = s.alu := rfl
@[simp] theorem handCond_xu (s : State) (c : AlarmCode) (b : Bool) :
    (handCond c b s).xu = s.xu := rfl
@[simp] theorem handCond_readData (s : State) (c : AlarmCode) (b : Bool) :
    (handCond c b s).readData = s.readData := rfl
@[simp] theorem handCond_pending (s : State) (c : AlarmCode) (b : Bool) :
    (handCond c b s).pending = s.pending := rfl

@[simp] theorem handIfChanged_tsu (s : State) (c : AlarmCode) (a b : Bool) :
    (handIfChanged c a b s).tsu = s.tsu := by
  unfold handIfChanged; split <;> rfl
@[simp] theorem handIfChanged_cap (s : State) (c : AlarmCode) (a b : Bool) :
    (handIfChanged c a b s).cap = s.cap := by
  unfold handIfChanged; split <;> rfl
@[simp] theorem handIfChanged_pku (s : State) (c : AlarmCode) (a b : Bool) :
    (handIfChanged c a b s).pku = s.pku := by
  unfold handIfChanged; split <;> rfl
@[simp] theorem handIfChanged_qsu (s : State) (c : AlarmCode) (a b : Bool) :
    (handIfChanged c a b s).qsu = s.qsu := by
  unfold handIfChanged; split <;> rfl
@[simp] theorem handIfChanged_lpu (s : State) (c : AlarmCode) (a b : Bool) :
    (handIfChanged c a b s).lpu = s.lpu := by
  unfold handIfChanged; split <;> rfl
@[simp] theorem handIfChanged_hou (s : State) (c : AlarmCode) (a b : Bool) :
    (handIfChanged c a b s).hou = s.hou := by
  unfold handIfChanged; split <;> rfl
@[simp] theorem handIfChanged_ptu (s : State) (c : AlarmCode) (a b : Bool) :
    (handIfChanged c a b s).ptu = s.ptu := by
  unfold handIfChanged; split <;> rfl
@[simp] theorem handIfChanged_alu (s : State) (c : AlarmCode) (a b : Bool) :
    (handIfChanged c a b s).alu = s.alu := by
  unfold handIfChanged; split <;> rfl
@[simp] theorem handIfChanged_xu (s : State) (c : AlarmCode) (a b : Bool) :
    (handIfChanged c a b s).xu = s.xu := by
  unfold handIfChanged; split <;> rfl
@[simp] theorem handIfChanged_readData (s : State) (c : AlarmCode) (a b : Bool) :
    (handIfChanged c a b s).readData = s.readData := by
  unfold handIfChanged; split <;> rfl
@[simp] theorem handIfChanged_pending (s : State) (c : AlarmCode) (a b : Bool) :
    (handIfChanged c a b s).pending = s.pending := by
  unfold handIfChanged; split <;> rfl

@[simp] theorem settleFreqLimit_tsu (s : State) (b : Bool) :
    (settleFreqLimit b s).tsu = s.tsu := by
  simp [settleFreqLimit]
@[simp] theorem settleFreqLimit_cap (s : State) (b : Bool) :
    (settleFreqLimit b s).cap = s.cap := by
  simp [settleFreqLimit]
@[simp] theorem settleFreqLimit_pku (s : State) (b : Bool) :
    (settleFreqLimit b s).pku = s.pku := by
  simp [settleFreqLimit]
@[simp] theorem settleFreqLimit_qsu (s : State) (b : Bool) :
    (settleFreqLimit b s).qsu = s.qsu := by
  simp [settleFreqLimit]
@[simp] theorem settleFreqLimit_hou (s : State) (b : Bool) :
    (settleFreqLimit b s).hou = s.hou := by
  simp [settleFreqLimit]
@[simp] theorem settleFreqLimit_ptu (s : State) (b : Bool) :
    (settleFreqLimit b s).ptu = s.ptu := by
  simp [settleFreqLimit]
@[simp] theorem settleFreqLimit_alu (s : State) (b : Bool) :
    (settleFreqLimit b s).alu = s.alu := by
  simp [settleFreqLimit]
@[simp] theorem settleFreqLimit_xu (s : State) (b : Bool) :
    (settleFreqLimit b s).xu = s.xu := by
  simp [settleFreqLimit]
@[simp] theorem settleFreqLimit_readData (s : State) (b : Bool) :
    (settleFreqLimit b s).readData = s.readData := by
  simp [settleFreqLimit]
@[simp] theorem settleFreqLimit_pending (s : State) (b : Bool) :
    (settleFreqLimit b s).pending = s.pending := by
  simp [settleFreqLimit]

@[simp] theorem complete_tsu (s : State) (n : Slot) (c : Completion) (l : Label) (ws : List Word) :
    (complete n c l ws s).tsu = s.tsu := by
  unfold complete; split <;> rfl
@[simp] theorem complete_cap (s : State) (n : Slot) (c : Completion) (l : Label) (ws : List Word) :
    (complete n c l ws s).cap = s.cap := by
  unfold complete; split <;> rfl
@[simp] theorem complete_pku (s : State) (n : Slot) (c : Completion) (l : Label) (ws : List Word) :
    (complete n c l ws s).pku = s.pku := by
  unfold complete; split <;> rfl
@[simp] theorem complete_qsu (s : State) (n : Slot) (c : Completion) (l : Label) (ws : List Word) :
    (complete n c l ws s).qsu = s.qsu := by
  unfold complete; split <;> rfl
@[simp] theorem complete_lpu (s : State) (n : Slot) (c : Completion) (l : Label) (ws : List Word) :
    (complete n c l ws s).lpu = s.lpu := by
  unfold complete; split <;> rfl
@[simp] theorem complete_hou (s : State) (n : Slot) (c : Completion) (l : Label) (ws : List Word) :
    (complete n c l ws s).hou = s.hou := by
  unfold complete; split <;> rfl
@[simp] theorem complete_ptu (s : State) (n : Slot) (c : Completion) (l : Label) (ws : List Word) :
    (complete n c l ws s).ptu = s.ptu := by
  unfold complete; split <;> rfl
@[simp] theorem complete_alu (s : State) (n : Slot) (c : Completion) (l : Label) (ws : List Word) :
    (complete n c l ws s).alu = s.alu := by
  unfold complete; split <;> rfl
@[simp] theorem complete_wires (s : State) (n : Slot) (c : Completion) (l : Label) (ws : List Word) :
    (complete n c l ws s).wires = s.wires := by
  unfold complete; split <;> rfl
@[simp] theorem complete_readData (s : State) (n : Slot) (c : Completion) (l : Label) (ws : List Word) :
    (complete n c l ws s).readData = s.readData := by
  unfold complete; split <;> rfl
@[simp] theorem complete_pending (s : State) (n : Slot) (c : Completion) (l : Label) (ws : List Word) :
    (complete n c l ws s).pending = s.pending := by
  unfold complete; split <;> rfl

@[simp] theorem completeNow_tsu (s : State) (n : Slot) (c : Completion) :
    (completeNow n c s).tsu = s.tsu := by
  simp [completeNow]
@[simp] theorem completeNow_cap (s : State) (n : Slot) (c : Completion) :
    (completeNow n c s).cap = s.cap := by
  simp [completeNow]
@[simp] theorem completeNow_pku (s : State) (n : Slot) (c : Completion) :
    (completeNow n c s).pku = s.pku := by
  simp [completeNow]
@[simp] theorem completeNow_qsu (s : State) (n : Slot) (c : Completion) :
    (completeNow n c s).qsu = s.qsu := by
  simp [completeNow]
@[simp] theorem completeNow_lpu (s : State) (n : Slot) (c : Completion) :
    (completeNow n c s).lpu = s.lpu := by
  simp [completeNow]
@[simp] theorem completeNow_hou (s : State) (n : Slot) (c : Completion) :
    (completeNow n c s).hou = s.hou := by
  simp [completeNow]
@[simp] theorem completeNow_ptu (s : State) (n : Slot) (c : Completion) :
    (completeNow n c s).ptu = s.ptu := by
  simp [completeNow]
@[simp] theorem completeNow_alu (s : State) (n : Slot) (c : Completion) :
    (completeNow n c s).alu = s.alu := by
  simp [completeNow]
@[simp] theorem completeNow_wires (s : State) (n : Slot) (c : Completion) :
    (completeNow n c s).wires = s.wires := by
  simp [completeNow]
@[simp] theorem completeNow_readData (s : State) (n : Slot) (c : Completion) :
    (completeNow n c s).readData = s.readData := by
  simp [completeNow]
@[simp] theorem completeNow_pending (s : State) (n : Slot) (c : Completion) :
    (completeNow n c s).pending = s.pending := by
  simp [completeNow]

@[simp] theorem handLoop_tsu (s : State) (e : LoopEvent) :
    (handLoop e s).tsu = s.tsu := rfl
@[simp] theorem handLoop_cap (s : State) (e : LoopEvent) :
    (handLoop e s).cap = s.cap := rfl
@[simp] theorem handLoop_pku (s : State) (e : LoopEvent) :
    (handLoop e s).pku = s.pku := rfl
@[simp] theorem handLoop_qsu (s : State) (e : LoopEvent) :
    (handLoop e s).qsu = s.qsu := rfl
@[simp] theorem handLoop_lpu (s : State) (e : LoopEvent) :
    (handLoop e s).lpu = s.lpu := rfl
@[simp] theorem handLoop_hou (s : State) (e : LoopEvent) :
    (handLoop e s).hou = s.hou := rfl
@[simp] theorem handLoop_ptu (s : State) (e : LoopEvent) :
    (handLoop e s).ptu = s.ptu := rfl
@[simp] theorem handLoop_alu (s : State) (e : LoopEvent) :
    (handLoop e s).alu = s.alu := rfl
@[simp] theorem handLoop_xu (s : State) (e : LoopEvent) :
    (handLoop e s).xu = s.xu := rfl
@[simp] theorem handLoop_readData (s : State) (e : LoopEvent) :
    (handLoop e s).readData = s.readData := rfl
@[simp] theorem handLoop_pending (s : State) (e : LoopEvent) :
    (handLoop e s).pending = s.pending := rfl

@[simp] theorem handHou_tsu (s : State) (e : HouEvent) :
    (handHou e s).tsu = s.tsu := rfl
@[simp] theorem handHou_cap (s : State) (e : HouEvent) :
    (handHou e s).cap = s.cap := rfl
@[simp] theorem handHou_pku (s : State) (e : HouEvent) :
    (handHou e s).pku = s.pku := rfl
@[simp] theorem handHou_qsu (s : State) (e : HouEvent) :
    (handHou e s).qsu = s.qsu := rfl
@[simp] theorem handHou_lpu (s : State) (e : HouEvent) :
    (handHou e s).lpu = s.lpu := rfl
@[simp] theorem handHou_hou (s : State) (e : HouEvent) :
    (handHou e s).hou = s.hou := rfl
@[simp] theorem handHou_ptu (s : State) (e : HouEvent) :
    (handHou e s).ptu = s.ptu := rfl
@[simp] theorem handHou_alu (s : State) (e : HouEvent) :
    (handHou e s).alu = s.alu := rfl
@[simp] theorem handHou_xu (s : State) (e : HouEvent) :
    (handHou e s).xu = s.xu := rfl
@[simp] theorem handHou_readData (s : State) (e : HouEvent) :
    (handHou e s).readData = s.readData := rfl
@[simp] theorem handHou_pending (s : State) (e : HouEvent) :
    (handHou e s).pending = s.pending := rfl

@[simp] theorem handTsu_tsu (s : State) (e : TsuEvent) :
    (handTsu e s).tsu = s.tsu := rfl
@[simp] theorem handTsu_cap (s : State) (e : TsuEvent) :
    (handTsu e s).cap = s.cap := rfl
@[simp] theorem handTsu_pku (s : State) (e : TsuEvent) :
    (handTsu e s).pku = s.pku := rfl
@[simp] theorem handTsu_qsu (s : State) (e : TsuEvent) :
    (handTsu e s).qsu = s.qsu := rfl
@[simp] theorem handTsu_lpu (s : State) (e : TsuEvent) :
    (handTsu e s).lpu = s.lpu := rfl
@[simp] theorem handTsu_hou (s : State) (e : TsuEvent) :
    (handTsu e s).hou = s.hou := rfl
@[simp] theorem handTsu_ptu (s : State) (e : TsuEvent) :
    (handTsu e s).ptu = s.ptu := rfl
@[simp] theorem handTsu_alu (s : State) (e : TsuEvent) :
    (handTsu e s).alu = s.alu := rfl
@[simp] theorem handTsu_xu (s : State) (e : TsuEvent) :
    (handTsu e s).xu = s.xu := rfl
@[simp] theorem handTsu_readData (s : State) (e : TsuEvent) :
    (handTsu e s).readData = s.readData := rfl
@[simp] theorem handTsu_pending (s : State) (e : TsuEvent) :
    (handTsu e s).pending = s.pending := rfl

@[simp] theorem handArrival_tsu (s : State) (m : RawMeas) :
    (handArrival m s).tsu = s.tsu := rfl
@[simp] theorem handArrival_cap (s : State) (m : RawMeas) :
    (handArrival m s).cap = s.cap := rfl
@[simp] theorem handArrival_pku (s : State) (m : RawMeas) :
    (handArrival m s).pku = s.pku := rfl
@[simp] theorem handArrival_qsu (s : State) (m : RawMeas) :
    (handArrival m s).qsu = s.qsu := rfl
@[simp] theorem handArrival_lpu (s : State) (m : RawMeas) :
    (handArrival m s).lpu = s.lpu := rfl
@[simp] theorem handArrival_hou (s : State) (m : RawMeas) :
    (handArrival m s).hou = s.hou := rfl
@[simp] theorem handArrival_ptu (s : State) (m : RawMeas) :
    (handArrival m s).ptu = s.ptu := rfl
@[simp] theorem handArrival_alu (s : State) (m : RawMeas) :
    (handArrival m s).alu = s.alu := rfl
@[simp] theorem handArrival_xu (s : State) (m : RawMeas) :
    (handArrival m s).xu = s.xu := rfl
@[simp] theorem handArrival_readData (s : State) (m : RawMeas) :
    (handArrival m s).readData = s.readData := rfl
@[simp] theorem handArrival_pending (s : State) (m : RawMeas) :
    (handArrival m s).pending = s.pending := rfl

@[simp] theorem pruneLog_cap (s : State) :
    (pruneLog s).cap = s.cap := rfl
@[simp] theorem pruneLog_pku (s : State) :
    (pruneLog s).pku = s.pku := rfl
@[simp] theorem pruneLog_qsu (s : State) :
    (pruneLog s).qsu = s.qsu := rfl
@[simp] theorem pruneLog_lpu (s : State) :
    (pruneLog s).lpu = s.lpu := rfl
@[simp] theorem pruneLog_hou (s : State) :
    (pruneLog s).hou = s.hou := rfl
@[simp] theorem pruneLog_ptu (s : State) :
    (pruneLog s).ptu = s.ptu := rfl
@[simp] theorem pruneLog_alu (s : State) :
    (pruneLog s).alu = s.alu := rfl
@[simp] theorem pruneLog_xu (s : State) :
    (pruneLog s).xu = s.xu := rfl
@[simp] theorem pruneLog_wires (s : State) :
    (pruneLog s).wires = s.wires := rfl
@[simp] theorem pruneLog_readData (s : State) :
    (pruneLog s).readData = s.readData := rfl
@[simp] theorem pruneLog_pending (s : State) :
    (pruneLog s).pending = s.pending := rfl

@[simp] theorem releaseLatch_tsu (s : State) :
    (releaseLatch s).tsu = s.tsu := rfl
@[simp] theorem releaseLatch_cap (s : State) :
    (releaseLatch s).cap = s.cap := rfl
@[simp] theorem releaseLatch_pku (s : State) :
    (releaseLatch s).pku = s.pku := rfl
@[simp] theorem releaseLatch_qsu (s : State) :
    (releaseLatch s).qsu = s.qsu := rfl
@[simp] theorem releaseLatch_lpu (s : State) :
    (releaseLatch s).lpu = s.lpu := rfl
@[simp] theorem releaseLatch_hou (s : State) :
    (releaseLatch s).hou = s.hou := rfl
@[simp] theorem releaseLatch_ptu (s : State) :
    (releaseLatch s).ptu = s.ptu := rfl
@[simp] theorem releaseLatch_alu (s : State) :
    (releaseLatch s).alu = s.alu := rfl
@[simp] theorem releaseLatch_wires (s : State) :
    (releaseLatch s).wires = s.wires := rfl
@[simp] theorem releaseLatch_readData (s : State) :
    (releaseLatch s).readData = s.readData := rfl
@[simp] theorem releaseLatch_pending (s : State) :
    (releaseLatch s).pending = s.pending := rfl

@[simp] theorem settleForce_tsu (s : State) :
    (settleForce s).tsu = s.tsu := by
  simp [settleForce]
@[simp] theorem settleForce_cap (s : State) :
    (settleForce s).cap = s.cap := by
  simp [settleForce]
@[simp] theorem settleForce_pku (s : State) :
    (settleForce s).pku = s.pku := by
  simp [settleForce]
@[simp] theorem settleForce_lpu (s : State) :
    (settleForce s).lpu = s.lpu := by
  simp [settleForce]
@[simp] theorem settleForce_hou (s : State) :
    (settleForce s).hou = s.hou := by
  simp [settleForce]
@[simp] theorem settleForce_ptu (s : State) :
    (settleForce s).ptu = s.ptu := by
  simp [settleForce]
@[simp] theorem settleForce_alu (s : State) :
    (settleForce s).alu = s.alu := by
  simp [settleForce]
@[simp] theorem settleForce_xu (s : State) :
    (settleForce s).xu = s.xu := by
  simp [settleForce]
@[simp] theorem settleForce_readData (s : State) :
    (settleForce s).readData = s.readData := by
  simp [settleForce]
@[simp] theorem settleForce_pending (s : State) :
    (settleForce s).pending = s.pending := by
  simp [settleForce]

@[simp] theorem changeSelection_tsu (s : State) (r : Option Ref) (b : Bool) :
    (changeSelection r b s).tsu = s.tsu := by
  simp [changeSelection]
@[simp] theorem changeSelection_cap (s : State) (r : Option Ref) (b : Bool) :
    (changeSelection r b s).cap = s.cap := by
  simp [changeSelection]
@[simp] theorem changeSelection_pku (s : State) (r : Option Ref) (b : Bool) :
    (changeSelection r b s).pku = s.pku := by
  simp [changeSelection]
@[simp] theorem changeSelection_lpu (s : State) (r : Option Ref) (b : Bool) :
    (changeSelection r b s).lpu = s.lpu := by
  simp [changeSelection]
@[simp] theorem changeSelection_hou (s : State) (r : Option Ref) (b : Bool) :
    (changeSelection r b s).hou = s.hou := by
  simp [changeSelection]
@[simp] theorem changeSelection_ptu (s : State) (r : Option Ref) (b : Bool) :
    (changeSelection r b s).ptu = s.ptu := by
  simp [changeSelection]
@[simp] theorem changeSelection_alu (s : State) (r : Option Ref) (b : Bool) :
    (changeSelection r b s).alu = s.alu := by
  simp [changeSelection]
@[simp] theorem changeSelection_readData (s : State) (r : Option Ref) (b : Bool) :
    (changeSelection r b s).readData = s.readData := by
  simp [changeSelection]
@[simp] theorem changeSelection_pending (s : State) (r : Option Ref) (b : Bool) :
    (changeSelection r b s).pending = s.pending := by
  simp [changeSelection]

@[simp] theorem review_tsu (s : State) (r : Option Ref) :
    (review r s).tsu = s.tsu := by
  simp only [review]; split <;> simp
@[simp] theorem review_cap (s : State) (r : Option Ref) :
    (review r s).cap = s.cap := by
  simp only [review]; split <;> simp
@[simp] theorem review_pku (s : State) (r : Option Ref) :
    (review r s).pku = s.pku := by
  simp only [review]; split <;> simp
@[simp] theorem review_lpu (s : State) (r : Option Ref) :
    (review r s).lpu = s.lpu := by
  simp only [review]; split <;> simp
@[simp] theorem review_hou (s : State) (r : Option Ref) :
    (review r s).hou = s.hou := by
  simp only [review]; split <;> simp
@[simp] theorem review_ptu (s : State) (r : Option Ref) :
    (review r s).ptu = s.ptu := by
  simp only [review]; split <;> simp
@[simp] theorem review_alu (s : State) (r : Option Ref) :
    (review r s).alu = s.alu := by
  simp only [review]; split <;> simp
@[simp] theorem review_readData (s : State) (r : Option Ref) :
    (review r s).readData = s.readData := by
  simp only [review]; split <;> simp
@[simp] theorem review_pending (s : State) (r : Option Ref) :
    (review r s).pending = s.pending := by
  simp only [review]; split <;> simp

@[simp] theorem setRefState_tsu (s : State) (r : Ref) (t : RefState) (c : Option Cause) :
    (setRefState r t c s).tsu = s.tsu := by
  simp [setRefState]
@[simp] theorem setRefState_cap (s : State) (r : Ref) (t : RefState) (c : Option Cause) :
    (setRefState r t c s).cap = s.cap := by
  simp [setRefState]
@[simp] theorem setRefState_pku (s : State) (r : Ref) (t : RefState) (c : Option Cause) :
    (setRefState r t c s).pku = s.pku := by
  simp [setRefState]
@[simp] theorem setRefState_lpu (s : State) (r : Ref) (t : RefState) (c : Option Cause) :
    (setRefState r t c s).lpu = s.lpu := by
  simp [setRefState]
@[simp] theorem setRefState_hou (s : State) (r : Ref) (t : RefState) (c : Option Cause) :
    (setRefState r t c s).hou = s.hou := by
  simp [setRefState]
@[simp] theorem setRefState_ptu (s : State) (r : Ref) (t : RefState) (c : Option Cause) :
    (setRefState r t c s).ptu = s.ptu := by
  simp [setRefState]
@[simp] theorem setRefState_alu (s : State) (r : Ref) (t : RefState) (c : Option Cause) :
    (setRefState r t c s).alu = s.alu := by
  simp [setRefState]
@[simp] theorem setRefState_xu (s : State) (r : Ref) (t : RefState) (c : Option Cause) :
    (setRefState r t c s).xu = s.xu := by
  simp [setRefState]
@[simp] theorem setRefState_readData (s : State) (r : Ref) (t : RefState) (c : Option Cause) :
    (setRefState r t c s).readData = s.readData := by
  simp [setRefState]
@[simp] theorem setRefState_pending (s : State) (r : Ref) (t : RefState) (c : Option Cause) :
    (setRefState r t c s).pending = s.pending := by
  simp [setRefState]

@[simp] theorem enterState_tsu (s : State) (r : Ref) (t : RefState) (c : Option Cause) :
    (enterState r t c s).tsu = s.tsu := by
  simp only [enterState]; split <;> simp
@[simp] theorem enterState_cap (s : State) (r : Ref) (t : RefState) (c : Option Cause) :
    (enterState r t c s).cap = s.cap := by
  simp only [enterState]; split <;> simp
@[simp] theorem enterState_pku (s : State) (r : Ref) (t : RefState) (c : Option Cause) :
    (enterState r t c s).pku = s.pku := by
  simp only [enterState]; split <;> simp
@[simp] theorem enterState_lpu (s : State) (r : Ref) (t : RefState) (c : Option Cause) :
    (enterState r t c s).lpu = s.lpu := by
  simp only [enterState]; split <;> simp
@[simp] theorem enterState_hou (s : State) (r : Ref) (t : RefState) (c : Option Cause) :
    (enterState r t c s).hou = s.hou := by
  simp only [enterState]; split <;> simp
@[simp] theorem enterState_ptu (s : State) (r : Ref) (t : RefState) (c : Option Cause) :
    (enterState r t c s).ptu = s.ptu := by
  simp only [enterState]; split <;> simp
@[simp] theorem enterState_alu (s : State) (r : Ref) (t : RefState) (c : Option Cause) :
    (enterState r t c s).alu = s.alu := by
  simp only [enterState]; split <;> simp
@[simp] theorem enterState_readData (s : State) (r : Ref) (t : RefState) (c : Option Cause) :
    (enterState r t c s).readData = s.readData := by
  simp only [enterState]; split <;> simp
@[simp] theorem enterState_pending (s : State) (r : Ref) (t : RefState) (c : Option Cause) :
    (enterState r t c s).pending = s.pending := by
  simp only [enterState]; split <;> simp

@[simp] theorem compute_cap (s : State) (x : Int) :
    (compute x s).cap = s.cap := by
  simp [compute]
@[simp] theorem compute_pku (s : State) (x : Int) :
    (compute x s).pku = s.pku := by
  simp [compute]
@[simp] theorem compute_qsu (s : State) (x : Int) :
    (compute x s).qsu = s.qsu := by
  simp [compute]
@[simp] theorem compute_hou (s : State) (x : Int) :
    (compute x s).hou = s.hou := by
  simp [compute]
@[simp] theorem compute_ptu (s : State) (x : Int) :
    (compute x s).ptu = s.ptu := by
  simp [compute]
@[simp] theorem compute_alu (s : State) (x : Int) :
    (compute x s).alu = s.alu := by
  simp [compute]
@[simp] theorem compute_xu (s : State) (x : Int) :
    (compute x s).xu = s.xu := by
  simp [compute]
@[simp] theorem compute_readData (s : State) (x : Int) :
    (compute x s).readData = s.readData := by
  simp [compute]
@[simp] theorem compute_pending (s : State) (x : Int) :
    (compute x s).pending = s.pending := by
  simp [compute]

@[simp] theorem ownStateChange_tsu (s : State) (a b : LoopState) :
    (ownStateChange a b s).tsu = s.tsu := by
  simp [ownStateChange]
@[simp] theorem ownStateChange_cap (s : State) (a b : LoopState) :
    (ownStateChange a b s).cap = s.cap := by
  simp [ownStateChange]
@[simp] theorem ownStateChange_pku (s : State) (a b : LoopState) :
    (ownStateChange a b s).pku = s.pku := by
  simp [ownStateChange]
@[simp] theorem ownStateChange_qsu (s : State) (a b : LoopState) :
    (ownStateChange a b s).qsu = s.qsu := by
  simp [ownStateChange]
@[simp] theorem ownStateChange_lpu (s : State) (a b : LoopState) :
    (ownStateChange a b s).lpu = s.lpu := by
  simp [ownStateChange]
@[simp] theorem ownStateChange_hou (s : State) (a b : LoopState) :
    (ownStateChange a b s).hou = s.hou := by
  simp [ownStateChange]
@[simp] theorem ownStateChange_ptu (s : State) (a b : LoopState) :
    (ownStateChange a b s).ptu = s.ptu := by
  simp [ownStateChange]
@[simp] theorem ownStateChange_alu (s : State) (a b : LoopState) :
    (ownStateChange a b s).alu = s.alu := by
  simp [ownStateChange]
@[simp] theorem ownStateChange_readData (s : State) (a b : LoopState) :
    (ownStateChange a b s).readData = s.readData := by
  simp [ownStateChange]
@[simp] theorem ownStateChange_pending (s : State) (a b : LoopState) :
    (ownStateChange a b s).pending = s.pending := by
  simp [ownStateChange]

@[simp] theorem settleHou_tsu (s : State) (h : Hou) :
    (settleHou h s).tsu = s.tsu := by
  simp [settleHou]
@[simp] theorem settleHou_cap (s : State) (h : Hou) :
    (settleHou h s).cap = s.cap := by
  simp [settleHou]
@[simp] theorem settleHou_pku (s : State) (h : Hou) :
    (settleHou h s).pku = s.pku := by
  simp [settleHou]
@[simp] theorem settleHou_qsu (s : State) (h : Hou) :
    (settleHou h s).qsu = s.qsu := by
  simp [settleHou]
@[simp] theorem settleHou_lpu (s : State) (h : Hou) :
    (settleHou h s).lpu = s.lpu := by
  simp [settleHou]
@[simp] theorem settleHou_ptu (s : State) (h : Hou) :
    (settleHou h s).ptu = s.ptu := by
  simp [settleHou]
@[simp] theorem settleHou_alu (s : State) (h : Hou) :
    (settleHou h s).alu = s.alu := by
  simp [settleHou]
@[simp] theorem settleHou_xu (s : State) (h : Hou) :
    (settleHou h s).xu = s.xu := by
  simp [settleHou]
@[simp] theorem settleHou_readData (s : State) (h : Hou) :
    (settleHou h s).readData = s.readData := by
  simp [settleHou]
@[simp] theorem settleHou_pending (s : State) (h : Hou) :
    (settleHou h s).pending = s.pending := by
  simp [settleHou]

@[simp] theorem writeHold_cap (s : State) (f : Int) :
    (writeHold f s).cap = s.cap := by
  simp [writeHold]
@[simp] theorem writeHold_pku (s : State) (f : Int) :
    (writeHold f s).pku = s.pku := by
  simp [writeHold]
@[simp] theorem writeHold_qsu (s : State) (f : Int) :
    (writeHold f s).qsu = s.qsu := by
  simp [writeHold]
@[simp] theorem writeHold_hou (s : State) (f : Int) :
    (writeHold f s).hou = s.hou := by
  simp [writeHold]
@[simp] theorem writeHold_ptu (s : State) (f : Int) :
    (writeHold f s).ptu = s.ptu := by
  simp [writeHold]
@[simp] theorem writeHold_alu (s : State) (f : Int) :
    (writeHold f s).alu = s.alu := by
  simp [writeHold]
@[simp] theorem writeHold_xu (s : State) (f : Int) :
    (writeHold f s).xu = s.xu := by
  simp [writeHold]
@[simp] theorem writeHold_readData (s : State) (f : Int) :
    (writeHold f s).readData = s.readData := by
  simp [writeHold]
@[simp] theorem writeHold_pending (s : State) (f : Int) :
    (writeHold f s).pending = s.pending := by
  simp [writeHold]

@[simp] theorem notifyMeas_tsu (s : State) (p : Port) (n : MeasNotice) :
    (notifyMeas p n s).tsu = s.tsu := by
  unfold notifyMeas; split; rfl; split <;> rfl
@[simp] theorem notifyMeas_cap (s : State) (p : Port) (n : MeasNotice) :
    (notifyMeas p n s).cap = s.cap := by
  unfold notifyMeas; split; rfl; split <;> rfl
@[simp] theorem notifyMeas_pku (s : State) (p : Port) (n : MeasNotice) :
    (notifyMeas p n s).pku = s.pku := by
  unfold notifyMeas; split; rfl; split <;> rfl
@[simp] theorem notifyMeas_qsu (s : State) (p : Port) (n : MeasNotice) :
    (notifyMeas p n s).qsu = s.qsu := by
  unfold notifyMeas; split; rfl; split <;> rfl
@[simp] theorem notifyMeas_lpu (s : State) (p : Port) (n : MeasNotice) :
    (notifyMeas p n s).lpu = s.lpu := by
  unfold notifyMeas; split; rfl; split <;> rfl
@[simp] theorem notifyMeas_hou (s : State) (p : Port) (n : MeasNotice) :
    (notifyMeas p n s).hou = s.hou := by
  unfold notifyMeas; split; rfl; split <;> rfl
@[simp] theorem notifyMeas_alu (s : State) (p : Port) (n : MeasNotice) :
    (notifyMeas p n s).alu = s.alu := by
  unfold notifyMeas; split; rfl; split <;> rfl
@[simp] theorem notifyMeas_xu (s : State) (p : Port) (n : MeasNotice) :
    (notifyMeas p n s).xu = s.xu := by
  unfold notifyMeas; split; rfl; split <;> rfl
@[simp] theorem notifyMeas_wires (s : State) (p : Port) (n : MeasNotice) :
    (notifyMeas p n s).wires = s.wires := by
  unfold notifyMeas; split; rfl; split <;> rfl
@[simp] theorem notifyMeas_readData (s : State) (p : Port) (n : MeasNotice) :
    (notifyMeas p n s).readData = s.readData := by
  unfold notifyMeas; split; rfl; split <;> rfl
@[simp] theorem notifyMeas_pending (s : State) (p : Port) (n : MeasNotice) :
    (notifyMeas p n s).pending = s.pending := by
  unfold notifyMeas; split; rfl; split <;> rfl

@[simp] theorem beginPeriod_tsu (s : State) (p : Port) :
    (beginPeriod p s).tsu = s.tsu := by
  unfold beginPeriod; split <;> simp
@[simp] theorem beginPeriod_cap (s : State) (p : Port) :
    (beginPeriod p s).cap = s.cap := by
  unfold beginPeriod; split <;> simp
@[simp] theorem beginPeriod_pku (s : State) (p : Port) :
    (beginPeriod p s).pku = s.pku := by
  unfold beginPeriod; split <;> simp
@[simp] theorem beginPeriod_qsu (s : State) (p : Port) :
    (beginPeriod p s).qsu = s.qsu := by
  unfold beginPeriod; split <;> simp
@[simp] theorem beginPeriod_lpu (s : State) (p : Port) :
    (beginPeriod p s).lpu = s.lpu := by
  unfold beginPeriod; split <;> simp
@[simp] theorem beginPeriod_hou (s : State) (p : Port) :
    (beginPeriod p s).hou = s.hou := by
  unfold beginPeriod; split <;> simp
@[simp] theorem beginPeriod_alu (s : State) (p : Port) :
    (beginPeriod p s).alu = s.alu := by
  unfold beginPeriod; split <;> simp
@[simp] theorem beginPeriod_xu (s : State) (p : Port) :
    (beginPeriod p s).xu = s.xu := by
  unfold beginPeriod; split <;> simp
@[simp] theorem beginPeriod_wires (s : State) (p : Port) :
    (beginPeriod p s).wires = s.wires := by
  unfold beginPeriod; split <;> simp
@[simp] theorem beginPeriod_readData (s : State) (p : Port) :
    (beginPeriod p s).readData = s.readData := by
  unfold beginPeriod; split <;> simp
@[simp] theorem beginPeriod_pending (s : State) (p : Port) :
    (beginPeriod p s).pending = s.pending := by
  unfold beginPeriod; split <;> simp

@[simp] theorem resumePort_tsu (s : State) (p : Port) :
    (resumePort p s).tsu = s.tsu := by
  unfold resumePort; dsimp only; (repeat' split) <;> simp
@[simp] theorem resumePort_cap (s : State) (p : Port) :
    (resumePort p s).cap = s.cap := by
  unfold resumePort; dsimp only; (repeat' split) <;> simp
@[simp] theorem resumePort_pku (s : State) (p : Port) :
    (resumePort p s).pku = s.pku := by
  unfold resumePort; dsimp only; (repeat' split) <;> simp
@[simp] theorem resumePort_qsu (s : State) (p : Port) :
    (resumePort p s).qsu = s.qsu := by
  unfold resumePort; dsimp only; (repeat' split) <;> simp
@[simp] theorem resumePort_lpu (s : State) (p : Port) :
    (resumePort p s).lpu = s.lpu := by
  unfold resumePort; dsimp only; (repeat' split) <;> simp
@[simp] theorem resumePort_hou (s : State) (p : Port) :
    (resumePort p s).hou = s.hou := by
  unfold resumePort; dsimp only; (repeat' split) <;> simp
@[simp] theorem resumePort_alu (s : State) (p : Port) :
    (resumePort p s).alu = s.alu := by
  unfold resumePort; dsimp only; (repeat' split) <;> simp
@[simp] theorem resumePort_xu (s : State) (p : Port) :
    (resumePort p s).xu = s.xu := by
  unfold resumePort; dsimp only; (repeat' split) <;> simp
@[simp] theorem resumePort_wires (s : State) (p : Port) :
    (resumePort p s).wires = s.wires := by
  unfold resumePort; dsimp only; (repeat' split) <;> simp
@[simp] theorem resumePort_readData (s : State) (p : Port) :
    (resumePort p s).readData = s.readData := by
  unfold resumePort; dsimp only; (repeat' split) <;> simp
@[simp] theorem resumePort_pending (s : State) (p : Port) :
    (resumePort p s).pending = s.pending := by
  unfold resumePort; dsimp only; (repeat' split) <;> simp

@[simp] theorem completeStaging_tsu (s : State) (g : Option Staged) (l : Label) :
    (completeStaging g l s).tsu = s.tsu := by
  unfold completeStaging; split <;> simp
@[simp] theorem completeStaging_cap (s : State) (g : Option Staged) (l : Label) :
    (completeStaging g l s).cap = s.cap := by
  unfold completeStaging; split <;> simp
@[simp] theorem completeStaging_pku (s : State) (g : Option Staged) (l : Label) :
    (completeStaging g l s).pku = s.pku := by
  unfold completeStaging; split <;> simp
@[simp] theorem completeStaging_qsu (s : State) (g : Option Staged) (l : Label) :
    (completeStaging g l s).qsu = s.qsu := by
  unfold completeStaging; split <;> simp
@[simp] theorem completeStaging_lpu (s : State) (g : Option Staged) (l : Label) :
    (completeStaging g l s).lpu = s.lpu := by
  unfold completeStaging; split <;> simp
@[simp] theorem completeStaging_hou (s : State) (g : Option Staged) (l : Label) :
    (completeStaging g l s).hou = s.hou := by
  unfold completeStaging; split <;> simp
@[simp] theorem completeStaging_ptu (s : State) (g : Option Staged) (l : Label) :
    (completeStaging g l s).ptu = s.ptu := by
  unfold completeStaging; split <;> simp
@[simp] theorem completeStaging_alu (s : State) (g : Option Staged) (l : Label) :
    (completeStaging g l s).alu = s.alu := by
  unfold completeStaging; split <;> simp
@[simp] theorem completeStaging_wires (s : State) (g : Option Staged) (l : Label) :
    (completeStaging g l s).wires = s.wires := by
  unfold completeStaging; split <;> simp
@[simp] theorem completeStaging_readData (s : State) (g : Option Staged) (l : Label) :
    (completeStaging g l s).readData = s.readData := by
  unfold completeStaging; split <;> simp
@[simp] theorem completeStaging_pending (s : State) (g : Option Staged) (l : Label) :
    (completeStaging g l s).pending = s.pending := by
  unfold completeStaging; split <;> simp

@[simp] theorem workPort_tsu (s : State) (v : WorkView) (p : Port) :
    (workPort v s p).tsu = s.tsu := by
  unfold workPort; dsimp only; split <;> simp
@[simp] theorem workPort_cap (s : State) (v : WorkView) (p : Port) :
    (workPort v s p).cap = s.cap := by
  unfold workPort; dsimp only; split <;> simp
@[simp] theorem workPort_pku (s : State) (v : WorkView) (p : Port) :
    (workPort v s p).pku = s.pku := by
  unfold workPort; dsimp only; split <;> simp
@[simp] theorem workPort_qsu (s : State) (v : WorkView) (p : Port) :
    (workPort v s p).qsu = s.qsu := by
  unfold workPort; dsimp only; split <;> simp
@[simp] theorem workPort_lpu (s : State) (v : WorkView) (p : Port) :
    (workPort v s p).lpu = s.lpu := by
  unfold workPort; dsimp only; split <;> simp
@[simp] theorem workPort_hou (s : State) (v : WorkView) (p : Port) :
    (workPort v s p).hou = s.hou := by
  unfold workPort; dsimp only; split <;> simp
@[simp] theorem workPort_alu (s : State) (v : WorkView) (p : Port) :
    (workPort v s p).alu = s.alu := by
  unfold workPort; dsimp only; split <;> simp
@[simp] theorem workPort_wires (s : State) (v : WorkView) (p : Port) :
    (workPort v s p).wires = s.wires := by
  unfold workPort; dsimp only; split <;> simp
@[simp] theorem workPort_readData (s : State) (v : WorkView) (p : Port) :
    (workPort v s p).readData = s.readData := by
  unfold workPort; dsimp only; split <;> simp
@[simp] theorem workPort_pending (s : State) (v : WorkView) (p : Port) :
    (workPort v s p).pending = s.pending := by
  unfold workPort; dsimp only; split <;> simp

@[simp] theorem bumpPorts_tsu (s : State) (n : Nat) :
    (bumpPorts n s).tsu = s.tsu := by
  induction n generalizing s with
  | zero => rfl
  | succ n ih => simp [bumpPorts, ih]
@[simp] theorem bumpPorts_cap (s : State) (n : Nat) :
    (bumpPorts n s).cap = s.cap := by
  induction n generalizing s with
  | zero => rfl
  | succ n ih => simp [bumpPorts, ih]
@[simp] theorem bumpPorts_pku (s : State) (n : Nat) :
    (bumpPorts n s).pku = s.pku := by
  induction n generalizing s with
  | zero => rfl
  | succ n ih => simp [bumpPorts, ih]
@[simp] theorem bumpPorts_qsu (s : State) (n : Nat) :
    (bumpPorts n s).qsu = s.qsu := by
  induction n generalizing s with
  | zero => rfl
  | succ n ih => simp [bumpPorts, ih]
@[simp] theorem bumpPorts_lpu (s : State) (n : Nat) :
    (bumpPorts n s).lpu = s.lpu := by
  induction n generalizing s with
  | zero => rfl
  | succ n ih => simp [bumpPorts, ih]
@[simp] theorem bumpPorts_hou (s : State) (n : Nat) :
    (bumpPorts n s).hou = s.hou := by
  induction n generalizing s with
  | zero => rfl
  | succ n ih => simp [bumpPorts, ih]
@[simp] theorem bumpPorts_ptu (s : State) (n : Nat) :
    (bumpPorts n s).ptu = s.ptu := by
  induction n generalizing s with
  | zero => rfl
  | succ n ih => simp [bumpPorts, ih]
@[simp] theorem bumpPorts_alu (s : State) (n : Nat) :
    (bumpPorts n s).alu = s.alu := by
  induction n generalizing s with
  | zero => rfl
  | succ n ih => simp [bumpPorts, ih]
@[simp] theorem bumpPorts_wires (s : State) (n : Nat) :
    (bumpPorts n s).wires = s.wires := by
  induction n generalizing s with
  | zero => rfl
  | succ n ih => simp [bumpPorts, ih]
@[simp] theorem bumpPorts_readData (s : State) (n : Nat) :
    (bumpPorts n s).readData = s.readData := by
  induction n generalizing s with
  | zero => rfl
  | succ n ih => simp [bumpPorts, ih]
@[simp] theorem bumpPorts_pending (s : State) (n : Nat) :
    (bumpPorts n s).pending = s.pending := by
  induction n generalizing s with
  | zero => rfl
  | succ n ih => simp [bumpPorts, ih]

@[simp] theorem settleSquelched_tsu (s : State) :
    (settleSquelched s).tsu = s.tsu := by
  simp [settleSquelched]
@[simp] theorem settleSquelched_cap (s : State) :
    (settleSquelched s).cap = s.cap := by
  simp [settleSquelched]
@[simp] theorem settleSquelched_pku (s : State) :
    (settleSquelched s).pku = s.pku := by
  simp [settleSquelched]
@[simp] theorem settleSquelched_qsu (s : State) :
    (settleSquelched s).qsu = s.qsu := by
  simp [settleSquelched]
@[simp] theorem settleSquelched_lpu (s : State) :
    (settleSquelched s).lpu = s.lpu := by
  simp [settleSquelched]
@[simp] theorem settleSquelched_hou (s : State) :
    (settleSquelched s).hou = s.hou := by
  simp [settleSquelched]
@[simp] theorem settleSquelched_alu (s : State) :
    (settleSquelched s).alu = s.alu := by
  simp [settleSquelched]
@[simp] theorem settleSquelched_xu (s : State) :
    (settleSquelched s).xu = s.xu := by
  simp [settleSquelched]
@[simp] theorem settleSquelched_readData (s : State) :
    (settleSquelched s).readData = s.readData := by
  simp [settleSquelched]
@[simp] theorem settleSquelched_pending (s : State) :
    (settleSquelched s).pending = s.pending := by
  simp [settleSquelched]

@[simp] theorem releaseAux_tsu (s : State) (a : AuxId) (p : Port) :
    (releaseAux a p s).tsu = s.tsu := rfl
@[simp] theorem releaseAux_cap (s : State) (a : AuxId) (p : Port) :
    (releaseAux a p s).cap = s.cap := rfl
@[simp] theorem releaseAux_pku (s : State) (a : AuxId) (p : Port) :
    (releaseAux a p s).pku = s.pku := rfl
@[simp] theorem releaseAux_qsu (s : State) (a : AuxId) (p : Port) :
    (releaseAux a p s).qsu = s.qsu := rfl
@[simp] theorem releaseAux_lpu (s : State) (a : AuxId) (p : Port) :
    (releaseAux a p s).lpu = s.lpu := rfl
@[simp] theorem releaseAux_hou (s : State) (a : AuxId) (p : Port) :
    (releaseAux a p s).hou = s.hou := rfl
@[simp] theorem releaseAux_alu (s : State) (a : AuxId) (p : Port) :
    (releaseAux a p s).alu = s.alu := rfl
@[simp] theorem releaseAux_xu (s : State) (a : AuxId) (p : Port) :
    (releaseAux a p s).xu = s.xu := rfl
@[simp] theorem releaseAux_wires (s : State) (a : AuxId) (p : Port) :
    (releaseAux a p s).wires = s.wires := rfl
@[simp] theorem releaseAux_readData (s : State) (a : AuxId) (p : Port) :
    (releaseAux a p s).readData = s.readData := rfl
@[simp] theorem releaseAux_pending (s : State) (a : AuxId) (p : Port) :
    (releaseAux a p s).pending = s.pending := rfl

@[simp] theorem stageComp_tsu (s : State) (p : Port) (g : Option (Int × Bool)) :
    (stageComp p g s).tsu = s.tsu := by
  unfold stageComp; split <;> rfl
@[simp] theorem stageComp_cap (s : State) (p : Port) (g : Option (Int × Bool)) :
    (stageComp p g s).cap = s.cap := by
  unfold stageComp; split <;> rfl
@[simp] theorem stageComp_pku (s : State) (p : Port) (g : Option (Int × Bool)) :
    (stageComp p g s).pku = s.pku := by
  unfold stageComp; split <;> rfl
@[simp] theorem stageComp_qsu (s : State) (p : Port) (g : Option (Int × Bool)) :
    (stageComp p g s).qsu = s.qsu := by
  unfold stageComp; split <;> rfl
@[simp] theorem stageComp_lpu (s : State) (p : Port) (g : Option (Int × Bool)) :
    (stageComp p g s).lpu = s.lpu := by
  unfold stageComp; split <;> rfl
@[simp] theorem stageComp_hou (s : State) (p : Port) (g : Option (Int × Bool)) :
    (stageComp p g s).hou = s.hou := by
  unfold stageComp; split <;> rfl
@[simp] theorem stageComp_alu (s : State) (p : Port) (g : Option (Int × Bool)) :
    (stageComp p g s).alu = s.alu := by
  unfold stageComp; split <;> rfl
@[simp] theorem stageComp_xu (s : State) (p : Port) (g : Option (Int × Bool)) :
    (stageComp p g s).xu = s.xu := by
  unfold stageComp; split <;> rfl
@[simp] theorem stageComp_wires (s : State) (p : Port) (g : Option (Int × Bool)) :
    (stageComp p g s).wires = s.wires := by
  unfold stageComp; split <;> rfl
@[simp] theorem stageComp_readData (s : State) (p : Port) (g : Option (Int × Bool)) :
    (stageComp p g s).readData = s.readData := by
  unfold stageComp; split <;> rfl
@[simp] theorem stageComp_pending (s : State) (p : Port) (g : Option (Int × Bool)) :
    (stageComp p g s).pending = s.pending := by
  unfold stageComp; split <;> rfl

@[simp] theorem settleDelayFailed_tsu (s : State) (b : Bool) :
    (settleDelayFailed b s).tsu = s.tsu := by
  simp [settleDelayFailed]
@[simp] theorem settleDelayFailed_cap (s : State) (b : Bool) :
    (settleDelayFailed b s).cap = s.cap := by
  simp [settleDelayFailed]
@[simp] theorem settleDelayFailed_pku (s : State) (b : Bool) :
    (settleDelayFailed b s).pku = s.pku := by
  simp [settleDelayFailed]
@[simp] theorem settleDelayFailed_qsu (s : State) (b : Bool) :
    (settleDelayFailed b s).qsu = s.qsu := by
  simp [settleDelayFailed]
@[simp] theorem settleDelayFailed_lpu (s : State) (b : Bool) :
    (settleDelayFailed b s).lpu = s.lpu := by
  simp [settleDelayFailed]
@[simp] theorem settleDelayFailed_hou (s : State) (b : Bool) :
    (settleDelayFailed b s).hou = s.hou := by
  simp [settleDelayFailed]
@[simp] theorem settleDelayFailed_alu (s : State) (b : Bool) :
    (settleDelayFailed b s).alu = s.alu := by
  simp [settleDelayFailed]
@[simp] theorem settleDelayFailed_xu (s : State) (b : Bool) :
    (settleDelayFailed b s).xu = s.xu := by
  simp [settleDelayFailed]
@[simp] theorem settleDelayFailed_readData (s : State) (b : Bool) :
    (settleDelayFailed b s).readData = s.readData := by
  simp [settleDelayFailed]
@[simp] theorem settleDelayFailed_pending (s : State) (b : Bool) :
    (settleDelayFailed b s).pending = s.pending := by
  simp [settleDelayFailed]

@[simp] theorem endResult_tsu (s : State) (a : AuxId) (m : DelayMeas) :
    (endResult a m s).tsu = s.tsu := by
  simp [endResult]
@[simp] theorem endResult_cap (s : State) (a : AuxId) (m : DelayMeas) :
    (endResult a m s).cap = s.cap := by
  simp [endResult]
@[simp] theorem endResult_pku (s : State) (a : AuxId) (m : DelayMeas) :
    (endResult a m s).pku = s.pku := by
  simp [endResult]
@[simp] theorem endResult_qsu (s : State) (a : AuxId) (m : DelayMeas) :
    (endResult a m s).qsu = s.qsu := by
  simp [endResult]
@[simp] theorem endResult_lpu (s : State) (a : AuxId) (m : DelayMeas) :
    (endResult a m s).lpu = s.lpu := by
  simp [endResult]
@[simp] theorem endResult_hou (s : State) (a : AuxId) (m : DelayMeas) :
    (endResult a m s).hou = s.hou := by
  simp [endResult]
@[simp] theorem endResult_alu (s : State) (a : AuxId) (m : DelayMeas) :
    (endResult a m s).alu = s.alu := by
  simp [endResult]
@[simp] theorem endResult_readData (s : State) (a : AuxId) (m : DelayMeas) :
    (endResult a m s).readData = s.readData := by
  simp [endResult]
@[simp] theorem endResult_pending (s : State) (a : AuxId) (m : DelayMeas) :
    (endResult a m s).pending = s.pending := by
  simp [endResult]

@[simp] theorem endInterrupted_tsu (s : State) (a : AuxId) (m : DelayMeas) :
    (endInterrupted a m s).tsu = s.tsu := by
  simp [endInterrupted]
@[simp] theorem endInterrupted_cap (s : State) (a : AuxId) (m : DelayMeas) :
    (endInterrupted a m s).cap = s.cap := by
  simp [endInterrupted]
@[simp] theorem endInterrupted_pku (s : State) (a : AuxId) (m : DelayMeas) :
    (endInterrupted a m s).pku = s.pku := by
  simp [endInterrupted]
@[simp] theorem endInterrupted_qsu (s : State) (a : AuxId) (m : DelayMeas) :
    (endInterrupted a m s).qsu = s.qsu := by
  simp [endInterrupted]
@[simp] theorem endInterrupted_lpu (s : State) (a : AuxId) (m : DelayMeas) :
    (endInterrupted a m s).lpu = s.lpu := by
  simp [endInterrupted]
@[simp] theorem endInterrupted_hou (s : State) (a : AuxId) (m : DelayMeas) :
    (endInterrupted a m s).hou = s.hou := by
  simp [endInterrupted]
@[simp] theorem endInterrupted_alu (s : State) (a : AuxId) (m : DelayMeas) :
    (endInterrupted a m s).alu = s.alu := by
  simp [endInterrupted]
@[simp] theorem endInterrupted_wires (s : State) (a : AuxId) (m : DelayMeas) :
    (endInterrupted a m s).wires = s.wires := by
  simp [endInterrupted]
@[simp] theorem endInterrupted_readData (s : State) (a : AuxId) (m : DelayMeas) :
    (endInterrupted a m s).readData = s.readData := by
  simp [endInterrupted]
@[simp] theorem endInterrupted_pending (s : State) (a : AuxId) (m : DelayMeas) :
    (endInterrupted a m s).pending = s.pending := by
  simp [endInterrupted]

@[simp] theorem decideSample_tsu (s : State) (a : AuxId) (r : RoundTrip) (m : DelayMeas) :
    (decideSample a r m s).tsu = s.tsu := by
  unfold decideSample; dsimp only; split <;> simp
@[simp] theorem decideSample_cap (s : State) (a : AuxId) (r : RoundTrip) (m : DelayMeas) :
    (decideSample a r m s).cap = s.cap := by
  unfold decideSample; dsimp only; split <;> simp
@[simp] theorem decideSample_pku (s : State) (a : AuxId) (r : RoundTrip) (m : DelayMeas) :
    (decideSample a r m s).pku = s.pku := by
  unfold decideSample; dsimp only; split <;> simp
@[simp] theorem decideSample_qsu (s : State) (a : AuxId) (r : RoundTrip) (m : DelayMeas) :
    (decideSample a r m s).qsu = s.qsu := by
  unfold decideSample; dsimp only; split <;> simp
@[simp] theorem decideSample_lpu (s : State) (a : AuxId) (r : RoundTrip) (m : DelayMeas) :
    (decideSample a r m s).lpu = s.lpu := by
  unfold decideSample; dsimp only; split <;> simp
@[simp] theorem decideSample_hou (s : State) (a : AuxId) (r : RoundTrip) (m : DelayMeas) :
    (decideSample a r m s).hou = s.hou := by
  unfold decideSample; dsimp only; split <;> simp
@[simp] theorem decideSample_alu (s : State) (a : AuxId) (r : RoundTrip) (m : DelayMeas) :
    (decideSample a r m s).alu = s.alu := by
  unfold decideSample; dsimp only; split <;> simp
@[simp] theorem decideSample_readData (s : State) (a : AuxId) (r : RoundTrip) (m : DelayMeas) :
    (decideSample a r m s).readData = s.readData := by
  unfold decideSample; dsimp only; split <;> simp
@[simp] theorem decideSample_pending (s : State) (a : AuxId) (r : RoundTrip) (m : DelayMeas) :
    (decideSample a r m s).pending = s.pending := by
  unfold decideSample; dsimp only; split <;> simp

@[simp] theorem changeAlarm_tsu (s : State) (c : AlarmCode) (st : AlarmState) (l : Label) :
    (changeAlarm c st l s).tsu = s.tsu := by
  unfold changeAlarm; dsimp only; split <;> simp
@[simp] theorem changeAlarm_cap (s : State) (c : AlarmCode) (st : AlarmState) (l : Label) :
    (changeAlarm c st l s).cap = s.cap := by
  unfold changeAlarm; dsimp only; split <;> simp
@[simp] theorem changeAlarm_pku (s : State) (c : AlarmCode) (st : AlarmState) (l : Label) :
    (changeAlarm c st l s).pku = s.pku := by
  unfold changeAlarm; dsimp only; split <;> simp
@[simp] theorem changeAlarm_qsu (s : State) (c : AlarmCode) (st : AlarmState) (l : Label) :
    (changeAlarm c st l s).qsu = s.qsu := by
  unfold changeAlarm; dsimp only; split <;> simp
@[simp] theorem changeAlarm_lpu (s : State) (c : AlarmCode) (st : AlarmState) (l : Label) :
    (changeAlarm c st l s).lpu = s.lpu := by
  unfold changeAlarm; dsimp only; split <;> simp
@[simp] theorem changeAlarm_hou (s : State) (c : AlarmCode) (st : AlarmState) (l : Label) :
    (changeAlarm c st l s).hou = s.hou := by
  unfold changeAlarm; dsimp only; split <;> simp
@[simp] theorem changeAlarm_ptu (s : State) (c : AlarmCode) (st : AlarmState) (l : Label) :
    (changeAlarm c st l s).ptu = s.ptu := by
  unfold changeAlarm; dsimp only; split <;> simp
@[simp] theorem changeAlarm_wires (s : State) (c : AlarmCode) (st : AlarmState) (l : Label) :
    (changeAlarm c st l s).wires = s.wires := by
  unfold changeAlarm; dsimp only; split <;> simp
@[simp] theorem changeAlarm_readData (s : State) (c : AlarmCode) (st : AlarmState) (l : Label) :
    (changeAlarm c st l s).readData = s.readData := by
  unfold changeAlarm; dsimp only; split <;> simp
@[simp] theorem changeAlarm_pending (s : State) (c : AlarmCode) (st : AlarmState) (l : Label) :
    (changeAlarm c st l s).pending = s.pending := by
  unfold changeAlarm; dsimp only; split <;> simp

end Sys2Proof.Machine
end

