-- ==== Sys2Proof/Laws/Ops.lean ====
section
/-! SUPPORT. For each shared operation, what it can do: the arithmetic, the tables, the attention
classes, completions, conditions, the selection review and the settling of the holdover unit. -/

namespace Sys2Proof.Machine

open Config

/-! ### Arithmetic -/

theorem clampAbs_le (x : Int) (b : Nat) : clampAbs x b ≤ b := by unfold clampAbs; omega

theorem neg_le_clampAbs (x : Int) (b : Nat) : -(b : Int) ≤ clampAbs x b := by
  unfold clampAbs; omega

theorem clampAbs_natAbs_le (x : Int) (b : Nat) : (clampAbs x b).natAbs ≤ b := by
  unfold clampAbs; omega

/-- A clamp leaves a value within its bound. -/
theorem clampAbs_of_le {x : Int} {b : Nat} (h : x.natAbs ≤ b) : clampAbs x b = x := by
  unfold clampAbs; omega

theorem satSucc_le (x m : Nat) : satSucc x m ≤ m := Nat.min_le_right _ _

/-- A rounding is at most half a unit away (R2). -/
theorem roundDiv_near (n : Int) {d : Nat} (h : 0 < d) :
    2 * (n - d * roundDiv n d) ≤ d ∧ -(d : Int) ≤ 2 * (n - d * roundDiv n d) := by
  unfold roundDiv
  have hd : (0 : Int) < 2 * (d : Int) := by omega
  split
  · have h1 := Int.emod_add_mul_ediv (2 * n + d) (2 * d)
    have h2 := Int.emod_nonneg (2 * n + d) (b := 2 * (d : Int)) (by omega)
    have h3 := Int.emod_lt_of_pos (2 * n + d) hd
    have h4 : 2 * ((d : Int) * ((2 * n + d) / (2 * d))) = 2 * d * ((2 * n + d) / (2 * d)) := by ring
    constructor <;> linarith
  · have h1 := Int.emod_add_mul_ediv (2 * (-n) + d) (2 * d)
    have h2 := Int.emod_nonneg (2 * (-n) + d) (b := 2 * (d : Int)) (by omega)
    have h3 := Int.emod_lt_of_pos (2 * (-n) + d) hd
    have h4 : 2 * ((d : Int) * -((2 * (-n) + d) / (2 * d)))
        = -(2 * d * ((2 * (-n) + d) / (2 * d))) := by ring
    constructor <;> linarith

/-! ### Tables -/

/-- An update of one entry of a table, in the form simp reads entries in. -/
theorem updAt_getElem {α : Type} {n : Nat} (v : Vector α n) (i : Fin n) (f : α → α) (j : Nat)
    (hj : j < n) : (updAt v i f)[j] = if i.val = j then f v[i.val] else v[j] := by
  simp [updAt, Vector.getElem_set]

/-- An update of one entry of a table. -/
theorem updAt_get {α : Type} {n : Nat} (v : Vector α n) (i j : Fin n) (f : α → α) :
    (updAt v i f)[j] = if i = j then f v[i] else v[j] := by
  simp [updAt_getElem, Fin.ext_iff]

theorem updAt_self {α : Type} {n : Nat} (v : Vector α n) (i : Fin n) (f : α → α) :
    (updAt v i f)[i] = f v[i] := by rw [updAt_get, if_pos rfl]

theorem updAt_ne {α : Type} {n : Nat} (v : Vector α n) {i j : Fin n} (f : α → α) (h : i ≠ j) :
    (updAt v i f)[j] = v[j] := by rw [updAt_get, if_neg h]

/-- The first element that satisfies a predicate: what stands before it does not. -/
theorem takeFirst_some {α : Type} {p : α → Bool} {l rest : List α} {x : α}
    (h : takeFirst p l = some (x, rest)) :
    ∃ before after, l = before ++ x :: after ∧ rest = before ++ after ∧ p x = true
      ∧ ∀ y ∈ before, p y = false := by
  induction l generalizing rest x with
  | nil => simp [takeFirst] at h
  | cons a l ih =>
    unfold takeFirst at h
    split at h
    · rename_i ha
      simp only [Option.some.injEq, Prod.mk.injEq] at h
      obtain ⟨rfl, rfl⟩ := h
      exact ⟨[], l, rfl, rfl, ha, by simp⟩
    · rename_i ha
      split at h
      · simp at h
      · rename_i y ys hy
        simp only [Option.some.injEq, Prod.mk.injEq] at h
        obtain ⟨rfl, rfl⟩ := h
        obtain ⟨b, c, h1, h2, h3, h4⟩ := ih hy
        refine ⟨a :: b, c, by simp [h1], by simp [h2], h3, ?_⟩
        intro z hz
        rcases List.mem_cons.mp hz with rfl | hz
        · simpa using ha
        · exact h4 z hz

/-- A front element that satisfies the predicate is the one taken. -/
theorem takeFirst_cons {α : Type} {p : α → Bool} {x : α} (l : List α) (h : p x = true) :
    takeFirst p (x :: l) = some (x, l) := by simp [takeFirst, h]

/-! ### Attention classes (R172 to R174) -/

/-- A line is wanted exactly when a class routed to it is pending. -/
theorem lineWanted_iff (attn : Vector Attention 6) (r : Route) :
    lineWanted attn r = true
      ↔ ∃ c : AttnClass, attn[c].pending = true ∧ attn[c].route = r := by
  simp [lineWanted]

@[simp] theorem settleLines_attn (x : Xu) : (settleLines x).attn = x.attn := rfl
@[simp] theorem settleLines_slots (x : Xu) : (settleLines x).slots = x.slots := rfl
@[simp] theorem settleLines_queue (x : Xu) : (settleLines x).queue = x.queue := rfl
@[simp] theorem settleLines_unit (x : Xu) : (settleLines x).unit = x.unit := rfl
@[simp] theorem settleLines_latch (x : Xu) : (settleLines x).latch = x.latch := rfl
@[simp] theorem settleLines_pages (x : Xu) : (settleLines x).pages = x.pages := rfl

@[simp] theorem bump_slots (c : AttnClass) (s : State) : (bump c s).xu.slots = s.xu.slots := rfl
@[simp] theorem bump_queue (c : AttnClass) (s : State) : (bump c s).xu.queue = s.xu.queue := rfl
@[simp] theorem bump_unit (c : AttnClass) (s : State) : (bump c s).xu.unit = s.xu.unit := rfl
@[simp] theorem bump_latch (c : AttnClass) (s : State) : (bump c s).xu.latch = s.xu.latch := rfl
@[simp] theorem bump_pages (c : AttnClass) (s : State) : (bump c s).xu.pages = s.xu.pages := rfl

/-- A bump: the class's count up by 1 and pending, every other class as it was (R172). -/
theorem bump_attn (c d : AttnClass) (s : State) :
    (bump c s).xu.attn[d] =
      if c = d then
        { s.xu.attn[c] with pending := true, count := s.xu.attn[c].count + 1 }
      else s.xu.attn[d] := updAt_get _ _ _ _

/-- After a bump both lines stand as R174 says. -/
theorem bump_lines (c : AttnClass) (s : State) :
    (bump c s).xu.inta = lineWanted (bump c s).xu.attn .inta
      ∧ (bump c s).xu.intb = lineWanted (bump c s).xu.attn .intb := ⟨rfl, rfl⟩

/-- R172 bumps no class for two states that agree in slots, alarm entries, selection and ports. -/
theorem bumpsShown_of_eq {s t : State} (c : AttnClass) (hx : t.xu.slots = s.xu.slots)
    (ha : t.alu.entries = s.alu.entries) (hq : t.qsu.selected = s.qsu.selected)
    (hp : ∀ p : Port, t.ptu.ports[p].state = s.ptu.ports[p].state) :
    Safety.bumpsShown s t c = 0 := by
  have hp' : ∀ p : Port, decide (s.ptu.ports[p].state ≠ t.ptu.ports[p].state) = false :=
    fun p => decide_eq_false fun h => h (hp p).symm
  unfold Safety.bumpsShown
  simp only [hx, ha, hq, hp']
  simp

/-- Nothing bumped: the two states agree in all that R172 names. -/
theorem attnBumped_none {s t : State} (hc : t.xu.attn = s.xu.attn)
    (hx : t.xu.slots = s.xu.slots) (ha : t.alu.entries = s.alu.entries)
    (hq : t.qsu.selected = s.qsu.selected)
    (hp : ∀ p : Port, t.ptu.ports[p].state = s.ptu.ports[p].state) :
    Safety.AttnBumped [] s t := by
  rintro c n rfl
  simp [bumpsShown_of_eq c hx ha hq hp, hc]

/-- The account of the bumps reads the classes, slots, alarm entries, selection and ports alone. -/
theorem attnBumped_congr {extra : List AttnClass} {s t u : State} (hc : t.xu.attn = u.xu.attn)
    (hx : t.xu.slots = u.xu.slots) (ha : t.alu = u.alu) (hq : t.qsu.selected = u.qsu.selected)
    (hp : t.ptu.ports = u.ptu.ports) (hb : Safety.AttnBumped extra s u) :
    Safety.AttnBumped extra s t := by
  rintro c n rfl
  have hs : Safety.bumpsShown s t c = Safety.bumpsShown s u c := by
    simp only [Safety.bumpsShown, hx, ha, hq, hp]
  rw [hc, hs]
  exact hb c _ rfl

/-- The classes bumped, told by what each gained: the form in which a proof shows AttnBumped. -/
theorem attnBumped_of_counts {extra : List AttnClass} {s t : State} (n : AttnClass → Nat)
    (hn : ∀ c, n c = Safety.bumpsShown s t c + extra.count c)
    (h : ∀ c : AttnClass, t.xu.attn[c] = { s.xu.attn[c] with
      pending := s.xu.attn[c].pending || decide (0 < n c)
      count := s.xu.attn[c].count + BitVec.ofNat 16 (n c) }) :
    Safety.AttnBumped extra s t := by
  rintro c m rfl
  rw [h c, hn c]

/-- A list counts one more where the predicate changes at one of its elements alone. -/
theorem countP_flip {α : Type} {l : List α} {p q : α → Bool} {x : α} (hl : l.Nodup) (hx : x ∈ l)
    (hpq : ∀ y, y ≠ x → q y = p y) (hp : p x = false) (hq : q x = true) :
    l.countP q = l.countP p + 1 := by
  obtain ⟨a, b, rfl⟩ := List.append_of_mem hx
  have hx' := hl
  rw [List.nodup_middle, List.nodup_cons, List.mem_append, not_or] at hx'
  have same : ∀ c : List α, x ∉ c → c.countP q = c.countP p := fun c hc =>
    List.countP_congr fun y hy => by rw [hpq y fun h => hc (h ▸ hy)]
  simp [same a hx'.1.1, same b hx'.1.2, hp, hq]
  omega

/-- A bump in the form of AttnBumped. -/
theorem bump_attn_count (c d : AttnClass) (s : State) :
    (bump c s).xu.attn[d] = { s.xu.attn[d] with
      pending := s.xu.attn[d].pending || decide (0 < if c = d then 1 else 0)
      count := s.xu.attn[d].count + BitVec.ofNat 16 (if c = d then 1 else 0) } := by
  rw [bump_attn]
  by_cases h : c = d
  · subst h; simp
  · simp [h]

/-- A bump for what the two states do not show keeps the account of the bumps (R172). -/
theorem attnBumped_bump {extra : List AttnClass} {s t : State} (c : AttnClass)
    (hb : Safety.AttnBumped extra s t) : Safety.AttnBumped (c :: extra) s (bump c t) := by
  rintro d m rfl
  have hm := hb d _ rfl
  have hs : Safety.bumpsShown s (bump c t) d = Safety.bumpsShown s t d := rfl
  rw [bump_attn_count, hm, hs, List.count_cons]
  by_cases hc : c = d
  · subst hc
    simp [← Nat.add_assoc, BitVec.ofNat_add (x := Safety.bumpsShown s t c + List.count c extra) 1,
      BitVec.add_assoc]
  · simp [hc]

/-! ### Completions (R171) -/

/-- A completion of a slot that is not TAKEN is discarded. -/
theorem complete_of_ne {n : Slot} {s : State} (c : Completion) (l : Label) (ws : List Word)
    (h : s.xu.slots[n].state ≠ .taken) : complete n c l ws s = s := if_neg h

/-- A completion of a TAKEN slot: result, code and label written, the slot DONE, DONE bumped. -/
theorem complete_of_taken {n : Slot} {s : State} (c : Completion) (l : Label) (ws : List Word)
    (h : s.xu.slots[n].state = .taken) :
    (complete n c l ws s).xu.slots = updAt s.xu.slots n (fun q =>
        { q with params := overwrite q.params ws, code := c.code, label := l, state := .done })
      ∧ (complete n c l ws s).xu.attn[clsDone] =
        { s.xu.attn[clsDone] with pending := true, count := s.xu.attn[clsDone].count + 1 } := by
  unfold complete
  rw [if_pos h]
  exact ⟨rfl, bump_attn _ _ _⟩

/-- The bumps that R172 names for a completion: DONE once more, and no other class. -/
theorem bumpsShown_complete {s t : State} {n : Slot} (k : Completion) (l : Label) (ws : List Word)
    (c : AttnClass) (h : t.xu.slots[n].state = .taken) (hs : s.xu.slots[n].state ≠ .done) :
    Safety.bumpsShown s (complete n k l ws t) c
      = Safety.bumpsShown s t c + if clsDone = c then 1 else 0 := by
  have hd := (complete_of_taken k l ws h).1
  unfold Safety.bumpsShown
  by_cases hc : c = clsDone
  · subst hc
    simp only [if_true]
    refine countP_flip (List.nodup_finRange 16) (List.mem_finRange n) (fun y hy => ?_) ?_ ?_
    · rw [hd, updAt_ne _ _ (Ne.symm hy)]
    · rw [h]; simp
    · rw [hd, updAt_self]; simpa using hs
  · simp [hc, Ne.symm hc]

/-- A completion of a TAKEN slot keeps the account of the bumps (R171 step 5, R172). -/
theorem attnBumped_complete {extra : List AttnClass} {s t : State} {n : Slot} (k : Completion)
    (l : Label) (ws : List Word) (h : t.xu.slots[n].state = .taken)
    (hs : s.xu.slots[n].state ≠ .done) (hb : Safety.AttnBumped extra s t) :
    Safety.AttnBumped extra s (complete n k l ws t) := by
  rintro c m rfl
  have hm := hb c _ rfl
  have hx : (complete n k l ws t).xu.attn[c] = (bump clsDone t).xu.attn[c] := by
    unfold complete
    rw [if_pos h, bump_attn, bump_attn]
    rfl
  rw [hx, bump_attn_count, hm, bumpsShown_complete k l ws c h hs]
  by_cases hc : clsDone = c
  · subst hc
    simp only [if_true, Nat.add_right_comm (Safety.bumpsShown s t clsDone) 1]
    simp [BitVec.ofNat_add (x := Safety.bumpsShown s t clsDone + List.count clsDone extra) 1,
      BitVec.add_assoc]
  · simp [hc]

@[simp] theorem complete_queue (n : Slot) (c : Completion) (l : Label) (ws : List Word) (s : State) :
    (complete n c l ws s).xu.queue = s.xu.queue := by unfold complete; split <;> rfl
@[simp] theorem complete_unit (n : Slot) (c : Completion) (l : Label) (ws : List Word) (s : State) :
    (complete n c l ws s).xu.unit = s.xu.unit := by unfold complete; split <;> rfl
@[simp] theorem complete_latch (n : Slot) (c : Completion) (l : Label) (ws : List Word) (s : State) :
    (complete n c l ws s).xu.latch = s.xu.latch := by unfold complete; split <;> rfl
@[simp] theorem complete_pages (n : Slot) (c : Completion) (l : Label) (ws : List Word) (s : State) :
    (complete n c l ws s).xu.pages = s.xu.pages := by unfold complete; split <;> rfl

/-- A result of no words leaves the parameter area (R171). -/
@[simp] theorem overwrite_nil (p : Vector Word 24) : overwrite p [] = p := by
  ext i; simp [overwrite]

/-- A completion changes the exchange unit alone. -/
theorem complete_frame (n : Slot) (c : Completion) (l : Label) (ws : List Word) (s : State) :
    complete n c l ws s = { s with xu := (complete n c l ws s).xu } := by
  unfold complete
  split <;> rfl

/-- A completion without result of a TAKEN slot: its code and label written, the slot DONE, DONE bumped
once; `u` is what the unit holds (R171). -/
theorem completeNow_changes {n : Slot} {s : State} (k : Completion) (u : Option Slot)
    (h : s.xu.slots[n].state = .taken) :
    Safety.ChangesXu (s.xu.slots.set n (Safety.doneSlot n k.code s.tsu.label s)) u [] s
        (completeNow n k (s.setXu { s.xu with unit := u }))
      ∧ (completeNow n k (s.setXu { s.xu with unit := u })).xu.attn[clsDone]
        = { s.xu.attn[clsDone] with pending := true, count := s.xu.attn[clsDone].count + 1 } := by
  have h' : (s.setXu { s.xu with unit := u }).xu.slots[n].state = .taken := h
  refine ⟨⟨?_, ?_⟩, (complete_of_taken k s.tsu.label [] h').2⟩
  · simp only [completeNow, complete, if_pos h', overwrite_nil]
    rfl
  · exact attnBumped_complete k s.tsu.label [] h' (by rw [h]; decide)
      (attnBumped_none rfl rfl rfl rfl fun _ => rfl)

/-- The held request completed without result: what every request turned away or done at once does
(R170, R171). -/
theorem completeNow_held {n : Slot} {kind : Nat} {s : State} (k : Completion)
    (h : Safety.Held n kind s) : Safety.CompletesHeld n k.code s.tsu.label s
      (completeNow n k (s.setXu { s.xu with unit := none })) := by
  obtain ⟨hx, ha⟩ := completeNow_changes k none h.2.1
  exact ⟨hx, by rw [ha], by rw [ha]⟩

/-- The owner takes the held request with its parameters, and the unit then holds none (R170). -/
theorem takeRequest_held {n : Slot} {kind : Nat} {s : State} (f : Slot → Params → State → State)
    (h : Safety.Held n kind s) :
    takeRequest kind f s = f n s.xu.slots[n].params (s.setXu { s.xu with unit := none }) := by
  obtain ⟨h1, h2, h3⟩ := h
  simp only [takeRequest, heldSlot, h1, h2, h3, and_self, if_true]

/-! ### The step log (R13) -/

/-- The meaning's test of a log entry is that of the statements (R13). -/
theorem entryNeeded_iff (s : State) (l : LoggedStep) :
    entryNeeded s l = true ↔ Safety.Needed s l := by
  unfold entryNeeded Safety.Needed stepsSeen
  simp only [List.any_eq_true, List.mem_finRange, true_and, Bool.or_eq_true, Bool.and_eq_true,
    decide_eq_true_eq, bne_iff_ne]
  refine exists_congr fun d => or_congr ?_ and_comm
  cases s.cap.div[d].chain <;> simp

/-- Pruning keeps exactly the entries that are needed, in their order (R13). -/
theorem pruneLog_pruned (s : State) : Safety.LogPruned s (pruneLog s) := by
  refine ⟨rfl, List.filter_sublist, fun l hl => ?_⟩
  have hn : Safety.Needed (pruneLog s) l ↔ Safety.Needed s l := Iff.rfl
  rw [hn, ← entryNeeded_iff]
  simp [pruneLog, hl]

/-- A change of blocks other than the TSU, then pruning. -/
theorem pruneLog_pruned_of {s t : State} (h : t.tsu = s.tsu) :
    Safety.LogPruned s (pruneLog t) := by
  obtain ⟨h1, h2, h3⟩ := pruneLog_pruned t
  exact ⟨by rw [h1, h], h ▸ h2, fun l hl => h3 l (by rw [h]; exact hl)⟩

/-! ### Conditions (R150, R91) -/

/-- A change of presence is handed exactly when it is one. -/
theorem handIfChanged_conds (c : AlarmCode) (a b : Bool) (s : State) :
    (handIfChanged c a b s).wires.conds
      = if a = b then s.wires.conds else s.wires.conds ++ [⟨c, b⟩] := by
  unfold handIfChanged
  split <;> rfl

/-- All that handing a change of presence does. -/
theorem handIfChanged_eq (c : AlarmCode) (a b : Bool) (s : State) :
    handIfChanged c a b s = { s with
      wires := { s.wires with conds := s.wires.conds ++ Safety.handed c a b } } := by
  by_cases h : a = b <;> simp [handIfChanged, Safety.handed, h, handCond, State.setWires]

@[simp] theorem handIfChanged_same (c : AlarmCode) (a : Bool) (s : State) :
    handIfChanged c a a s = s := if_pos rfl

/-- Settling FREQUENCY-LIMIT sets its presence and leaves the rest of the loop. -/
theorem settleFreqLimit_lpu (b : Bool) (s : State) :
    (settleFreqLimit b s).lpu = { s.lpu with freqLimit := b } := by
  unfold settleFreqLimit handIfChanged
  split <;> rfl

/-- All that settling FREQUENCY-LIMIT does (R91). -/
theorem settleFreqLimit_eq (b : Bool) (s : State) :
    settleFreqLimit b s = { s with
      lpu := { s.lpu with freqLimit := b }
      wires := { s.wires with
        conds := s.wires.conds ++ Safety.handed codeFreqLimit s.lpu.freqLimit b } } := by
  rw [settleFreqLimit, handIfChanged_eq]; rfl

/-! ### Alarm pins (R155) -/

theorem pinWanted_iff (entries : Vector AlarmEntry 19) (v : Severity) :
    pinWanted entries v = true
      ↔ ∃ c : AlarmCode, entries[c].severity = v ∧ entries[c].mask = false
        ∧ (entries[c].state = .raised ∨ entries[c].state = .clearing) := by
  simp only [pinWanted, drivesPin, List.any_eq_true, List.mem_finRange, true_and, Bool.and_eq_true,
    Bool.not_eq_true', Bool.or_eq_true, beq_iff_eq]
  exact ⟨fun ⟨c, ⟨h1, h2⟩, h3⟩ => ⟨c, h3, h1, h2⟩, fun ⟨c, h3, h1, h2⟩ => ⟨c, ⟨h1, h2⟩, h3⟩⟩

@[simp] theorem settlePins_entries (a : Alu) : (settlePins a).entries = a.entries := rfl

/-- A change of an alarm entry's state: its entry, and no other (R154). -/
theorem changeAlarm_entries (c : AlarmCode) (st : AlarmState) (l : Label) (s : State) :
    (changeAlarm c st l s).alu.entries = updAt s.alu.entries c (enterAlarm st l) := by
  unfold changeAlarm
  dsimp only
  split <;> rfl

/-! ### Selection (R70 to R77) -/

/-- The best candidate is a candidate (R70). -/
theorem bestCandidate_candidate {refs : Vector RefEntry 8} {r : Ref}
    (h : bestCandidate refs = some r) : isCandidate refs[r] = true := by
  unfold bestCandidate at h
  have key : ∀ (l : List Ref) (b : Option Ref), (∀ x, b = some x → isCandidate refs[x] = true) →
      ∀ x, l.foldl (fun best r =>
        if isCandidate refs[r] then
          match best with
          | none => some r
          | some b => if refs[r].cfg.priority < refs[b].cfg.priority then some r else best
        else best) b = some x → isCandidate refs[x] = true := by
    intro l
    induction l with
    | nil => intro b hb x hx; exact hb x hx
    | cons a l ih =>
      intro b hb x hx
      refine ih _ ?_ x hx
      intro y hy
      dsimp only at hy
      split at hy
      · rename_i ha
        split at hy
        · cases hy; exact ha
        · split at hy
          · cases hy; exact ha
          · exact hb y hy
      · exact hb y hy
  exact key _ none (by simp) r h

/-- The automatic choice is a candidate (R71, R72). -/
theorem automaticChoice_candidate {q : Qsu} {r : Ref} (h : automaticChoice q = some r) :
    isCandidate q.refs[r] = true := by
  unfold automaticChoice at h
  split at h
  · exact bestCandidate_candidate h
  · split at h
    · rename_i c _ hc
      split at h
      · rename_i b _ hb
        split at h
        · cases h; exact bestCandidate_candidate hb
        · cases h; exact hc
      · cases h; exact hc
    · exact bestCandidate_candidate h

/-- The QSU is in warm-up while the count is above 0 or its end has still to be taken (R71, R76). -/
theorem inWarmUp_iff (s : State) : inWarmUp s = true ↔ Safety.Warming s := by
  simp [inWarmUp, Safety.Warming]

/-- A review selects a candidate or none, and none in warm-up and forced holdover (R71). -/
theorem reviewResult_candidate {w : Bool} {q : Qsu} {r : Ref} (h : reviewResult w q = some r) :
    isCandidate q.refs[r] = true ∧ w = false ∧ q.forcedHoldover = false := by
  unfold reviewResult at h
  split at h
  · simp at h
  · rename_i hw
    have hw' : w = false ∧ q.forcedHoldover = false := by
      simpa only [Bool.or_eq_true, not_or, Bool.not_eq_true] using hw
    split at h
    · split at h
      · rename_i hf
        cases h
        exact ⟨hf, hw'⟩
      · exact ⟨automaticChoice_candidate h, hw'⟩
    · exact ⟨automaticChoice_candidate h, hw'⟩

/-- After a review the selected reference is the review's result (R71, R77). -/
theorem review_selected (f : Option Ref) (s : State) :
    (review f s).qsu.selected = reviewResult (inWarmUp s) s.qsu := by
  simp only [review, settleForce, handIfChanged]
  split <;> split <;> simp_all [changeSelection, handLoop, bump, handCond, State.setWires,
    State.setQsu, State.setXu]

/-- A review changes no reference, mode or hold. -/
theorem review_refs (f : Option Ref) (s : State) :
    (review f s).qsu.refs = s.qsu.refs ∧ (review f s).qsu.revertive = s.qsu.revertive
      ∧ (review f s).qsu.forced = s.qsu.forced
      ∧ (review f s).qsu.forcedHoldover = s.qsu.forcedHoldover
      ∧ (review f s).qsu.lineOk = s.qsu.lineOk := by
  simp only [review, settleForce, handIfChanged]
  split <;> split <;> exact ⟨rfl, rfl, rfl, rfl, rfl⟩

/-- The QSU after a review: the selection and FORCE-INEFFECTIVE, and nothing else of it (R71, R73). -/
theorem review_settles (f : Option Ref) (s : State) :
    (review f s).qsu = { s.qsu with
      selected := reviewResult (inWarmUp s) s.qsu
      forceIneffective := s.qsu.forced.isSome && s.qsu.forced != reviewResult (inWarmUp s) s.qsu } := by
  simp only [review, settleForce, handIfChanged_eq]
  split
  · rename_i h; simp [State.setQsu, h]
  · simp [State.setQsu, changeSelection, bump, State.setXu, handLoop, State.setWires]

/-- The wires after a review: what it tells the loop and a change of FORCE-INEFFECTIVE (R73, R77). -/
theorem review_wires (f : Option Ref) (s : State) :
    (review f s).wires = { s.wires with
      loopIn := (review f s).wires.loopIn
      conds := s.wires.conds ++ Safety.handed 15 s.qsu.forceIneffective (review f s).qsu.forceIneffective } := by
  simp only [review, settleForce, handIfChanged_eq]
  split
  · simp [State.setQsu]
  · simp [State.setQsu, changeSelection, bump, State.setXu, handLoop, State.setWires]

/-- A review tells its change of selection, and nothing where there is none (R77). -/
theorem review_told (f : Option Ref) (s : State) :
    Safety.SelectionTold (f.isSome && f == s.qsu.selected) s (review f s) := by
  simp only [review, settleForce, handIfChanged_eq]
  split
  · exact ⟨attnBumped_none rfl rfl rfl rfl fun _ => rfl, fun _ => ⟨rfl, rfl⟩, fun h => absurd rfl h⟩
  · rename_i h
    refine ⟨?_, fun h' => absurd h' h, fun _ => ⟨rfl, ?_, ?_⟩⟩
    · refine attnBumped_of_counts (fun c => if clsSelect = c then 1 else 0) (fun c => ?_)
        fun c => bump_attn_count clsSelect c _
      by_cases hc : clsSelect = c
      · subst hc
        simp [Safety.bumpsShown, changeSelection, h, show clsSelect ≠ clsDone from by decide,
          show clsSelect ≠ clsAlarm from by decide]
      · simp [Safety.bumpsShown, hc, Ne.symm hc, changeSelection]
    · exact (congrArg Attention.count (bump_attn clsSelect clsSelect _)).trans rfl
    · exact (congrArg Attention.pending (bump_attn clsSelect clsSelect _)).trans rfl

/-- A review bumps an attention class at most. -/
theorem review_xu (f : Option Ref) (s : State) :
    (review f s).xu = { s.xu with
      attn := (review f s).xu.attn
      inta := (review f s).xu.inta
      intb := (review f s).xu.intb } := by
  simp only [review, settleForce, handIfChanged_eq]
  split
  · simp [State.setQsu]
  · simp [State.setQsu, changeSelection, bump, State.setXu, handLoop, State.setWires, bumpXu,
      settleLines]

/-! ### The holdover unit (R102, R113 to R115) -/

/-- The position at a boundary stays below the interval, and is 0 where an interval ends (R101, R102). -/
theorem countPosition_lt {h : Hou} (hi : 0 < h.cfg.interval) (hp : h.position < h.cfg.interval) :
    (countPosition h).position < h.cfg.interval := by
  unfold countPosition
  split
  · split <;> assumption
  · exact hp

/-- All that a boundary does to the position and the interval's end. -/
theorem countPosition_eq (h : Hou) : countPosition h = { h with
    position := (countPosition h).position, ended := (countPosition h).ended } := by
  unfold countPosition
  split
  · split <;> rfl
  · rfl

/-- Settling gives the unit its new fields with class and conditions derived. -/
theorem settleHou_hou (h : Hou) (s : State) : (settleHou h s).hou = derived h := by
  simp [settleHou]

/-- All that settling does: the fields with class and conditions derived, and each change of presence
handed. -/
theorem settleHou_eq (h : Hou) (s : State) :
    settleHou h s = { s with
      hou := derived h
      wires := { s.wires with
        conds := s.wires.conds ++ Safety.houHanded s.hou (derived h) } } := by
  simp only [settleHou, handIfChanged_eq, Safety.houHanded, State.setHou, List.append_assoc]

/-- Derived fields are settled. -/
theorem houSettled_derived (h : Hou) : Safety.HouSettled (derived h) := by
  refine ⟨rfl, ?_, ?_⟩
  · simp [derived, budgetOf]
  · simp [derived, notReadyOf, or_assoc]

/-- Guard pops move levels and take them from the fill, and nothing else (R105). -/
theorem popLevels_eq (g : Nat) (h : Hou) :
    popLevels g h = { h with levels := (popLevels g h).levels, fill := h.fill - g } := by
  induction g generalizing h with
  | zero => rfl
  | succ g ih =>
    rw [popLevels, ih]
    unfold popLevel
    split
    · rename_i h0
      simp [h0]
    · simp
      omega

/-! ### Timescale running since an instant (R142, R143) -/

/-- Within one second it is the difference of the fractions. -/
theorem runSince_same_second {t : Tsu} (ps : Nat) (hd : t.due = none) :
    runSince t t.second ps = (t.frac : Int) - ps := by simp [runSince, hd]

/-- Over a boundary it is what was left of the second and what the next one has run without its
step. -/
theorem runSince_next_second {t : Tsu} {n : Nat} (ps : Nat) (hn : n + 1 = t.second)
    (hd : t.due = none) (hh : t.hold = none) :
    runSince t n ps = (psPerSecond : Int) - ps + (t.frac - t.secondStep) := by
  have : (t.second : Int) - n = 1 := by omega
  simp [runSince, hd, hh, this, show n ≠ t.second by omega]

/-- In a hold the next second has run what the hold has counted. -/
theorem runSince_next_second_hold {t : Tsu} {n : Nat} {h : Hold} (ps : Nat) (hn : n + 1 = t.second)
    (hh : t.hold = some h) : runSince t n ps = (psPerSecond : Int) - ps + h.run := by
  have : (t.second : Int) - n = 1 := by omega
  simp [runSince, hh, this, show n ≠ t.second by omega]

end Sys2Proof.Machine
end

