-- ==== Sys2Proof/Tests/Slice0.lean ====
section
/-! SUPPORT. Tests: ill-formed terms refused, worked values of the manual, and for each statement of
Certificates/Slice0/Obligations.lean that has hypotheses a state and operands that meet them. -/

namespace Sys2Proof.Tests

open Sys2Proof Sys2Proof.Machine Sys2Proof.Safety Sys2Proof.Config

/-! ### WellFormed refuses -/

/-- A write that is an EXCHANGE_RESET, an ack, a route, a post, a free, a sample or an alarm ack. -/
theorem test_wellFormed_refuses_rows_of_their_own :
    Instr.wellFormed (.hostWrite 0xFFE 1) = false ∧ Instr.wellFormed (.hostWrite 18 7) = false
    ∧ Instr.wellFormed (.hostWrite 19 2) = false ∧ Instr.wellFormed (.hostWrite 0x080 1) = false
    ∧ Instr.wellFormed (.hostWrite 0x0A0 0) = false ∧ Instr.wellFormed (.hostWrite 0x280 1) = false
    ∧ Instr.wellFormed (.hostWrite 0x988 5) = false := by decide

theorem test_wellFormed_refuses_wrong_reads :
    Instr.wellFormed (.readRecordFirstWord 0x681) = false
    ∧ Instr.wellFormed (.readLatchedWord 0x680) = false
    ∧ Instr.wellFormed (.readRecordFirstWord 0x990) = true
    ∧ Instr.wellFormed (.readLatchedWord 0x981) = true := by decide

theorem test_wellFormed_takes_plain_writes :
    Instr.wellFormed (.hostWrite 0x081 9) = true ∧ Instr.wellFormed (.hostWrite 0xFFE 0) = true
    ∧ Instr.wellFormed (.hostWrite 0 0) = true := by decide

/-- The table gives no row bits, so no word spells a command. -/
theorem test_no_word_spells_a_command : decodeTableWord 16 0x1234 = none := by decide

/-! ### Worked values of the manual -/

/-- R137: the CRC over "123456789". -/
theorem test_crc : crc16 [0x31, 0x32, 0x33, 0x34, 0x35, 0x36, 0x37, 0x38, 0x39] = 0x29B1 := by
  decide +kernel

/-- The table of R136. -/
theorem test_uncertainty_codes :
    [800, 61000, 1088935, 1100575, 4035000, 999999999999].map uncertaintyCode
      = [0, 6, 11, 11, 12, 30] := by decide +kernel

/-- The roundings of the worked sequence of chapter 5. -/
theorem test_rounding :
    roundShift 5875 2 = 1469 ∧ roundShift 5875 6 = 92 ∧ roundShift 1818 2 = 455
    ∧ roundShift (-442) 2 = -111 ∧ roundShift (-442) 6 = -7 := by decide

/-- The edges of R126 at 2,048,000 Hz. -/
theorem test_frequency_edges :
    [0, 1, 2, 7, 8].map (edgeOffset { defaultSettings with mode := .frequency, freq := 2048000 })
      = [0, 244125, 488250, 1708875, 1953125] := by decide

/-- Ends of the message at the four rates (R127). -/
theorem test_message_lengths :
    [9600, 19200, 38400, 115200].map (fun r => bitOffset r 140 - 20000000000)
      = [14583333250, 7291666625, 3645833250, 1215277750] := by decide

/-- Section 11.1: a phase error of −2,000 ps reads 0xF830, 0xFFFF, 0xFFFF. -/
theorem test_signed_words : encPs3 (-2000) = [0xF830, 0xFFFF, 0xFFFF] := by decide

/-- The holdover term of R109: an aging of 1,440 ppt per day gives 1 ppt first at t = 30. -/
theorem test_holdover_step :
    holdFrequency { resetHou with dHold := 1440, clock := 29 } = 0
    ∧ holdFrequency { resetHou with dHold := 1440, clock := 30 } = 1 := by decide

/-- The cases of section 1.3.2: an INSERT at 5,003 meeting a SET-TIME. -/
theorem test_set_time_meets_leap :
    fateBySetTime 5000 5010 (some ⟨5003, .insert, 0⟩) = .missed
    ∧ fateBySetTime 5000 5004 (some ⟨5003, .insert, 0⟩) = .missed
    ∧ fateBySetTime 5000 5003 (some ⟨5003, .insert, 0⟩) = .kept
    ∧ fateBySetTime 5003 5004 (some ⟨5003, .insert, 0⟩) = .kept := by decide

/-- Section 1.7.1: the interval across a negative step is 10¹² ps. -/
theorem test_interval_across_step :
    markerInterval ⟨⟨200, 999000000000⟩, 1, 1, 0, true⟩ 998700000000
      (stepsSince 0 1 [⟨201, -300000000, 1⟩]) = 1000000000000 := by decide

/-! ### Witnesses: the step, the laws and the resets -/

/-- A state with one class pending on INTA and one alarm raised. -/
def litState : State :=
  { State.reset with
    xu := { resetXu with
      attn := resetXu.attn.set 0 ⟨true, 1, 0, .inta⟩
      inta := true }
    alu := { resetAlu with
      entries := resetAlu.entries.set 9 { resetAlarm 9 with
        condition := true
        state := .raised
        raises := 1
        stamp := 1
        lastChange := some 0 }
      critPin := true }
    pending := [.attentionAck 0 1] }

theorem witness_StepTakesTheFrontCommand :
    litState.pending = .attentionAck 0 1 :: [] ∧ State.reset.pending = [] := by decide

theorem witness_StepKeepsOutputsSettled :
    OutputsSettled litState ∧ ∃ t, step litState = .next t := by
  refine ⟨?_, _, rfl⟩
  unfold OutputsSettled PinsSettled LineSource PinSource
  decide +kernel

theorem witness_StepKeepsAlarmEntries :
    AlarmLaw litState ∧ ∃ t, step litState = .next t := by
  refine ⟨?_, _, rfl⟩
  unfold AlarmLaw
  decide +kernel

/-- A state with slot 3 POSTED. -/
def postedState : State :=
  { State.reset with
    xu := { resetXu with
      slots := resetXu.slots.set 3 { freeSlot with state := .posted, kind := 9 }
      queue := [3] }
    pending := [.requestTake] }

theorem witness_StepKeepsPostingQueue :
    (QueueLaw postedState ∧ ∃ t, step postedState = .next t)
    ∧ (PacketLaw postedState ∧ ∃ t, step postedState = .next t) := by
  refine ⟨⟨?_, _, rfl⟩, ?_, _, rfl⟩
  · unfold QueueLaw
    decide +kernel
  · unfold PacketLaw
    decide +kernel

/-- PPS-A QUALIFIED and selected, the loop in TRACK on it. -/
def trackState : State :=
  { State.reset with
    qsu := { resetQsu with
      refs := resetQsu.refs.set 0 { resetRef 0 with
        cfg := { defaultRefConfig 0 with enabled := true }
        state := .qualified
        qualifyCount := 60 }
      selected := some 0 }
    lpu := { resetLpu with state := .track, followed := some 0, integral := 358 }
    hou := { resetHou with u := 108000, quality := 1, loop := .track, notReady := true }
    pending := [.houBoundary] }

theorem witness_StepKeepsSelectionSound :
    SelectionLaw trackState ∧ ∃ t, step trackState = .next t := by
  refine ⟨?_, _, rfl⟩
  unfold SelectionLaw
  decide +kernel

theorem witness_StepKeepsUncertaintySound :
    (UncertaintyLaw trackState ∧ ∃ t, step trackState = .next t)
    ∧ HistoryLaw { trackState with hou := { trackState.hou with position := 299 } }
    ∧ HistoryLaw { trackState with hou := { trackState.hou with ended := true } } := by
  refine ⟨⟨?_, _, rfl⟩, by unfold HistoryLaw; decide, by unfold HistoryLaw; decide⟩
  refine ⟨by decide, by decide, by decide, by decide, by decide, by decide, by decide, by decide,
    by decide, ?_⟩
  intro b i h
  exact absurd h (by simp [trackState, State.reset, noWires])

theorem witness_StepKeepsFrequencyBounded :
    (FrequencyLaw trackState ∧ ∃ t, step trackState = .next t)
    ∧ (TimescaleLaw trackState ∧ ∃ t, step trackState = .next t) := by
  refine ⟨⟨?_, _, rfl⟩, ?_, _, rfl⟩
  · unfold FrequencyLaw
    decide
  · unfold TimescaleLaw
    decide

/-- Port 4 held SQUELCHED at HIGH. -/
def squelchState : State :=
  { State.reset with
    ptu := { resetPtu with
      ports := resetPtu.ports.set 4 { resetPort with
        active := { defaultSettings with mode := .pulse, level := .high }
        state := .squelched
        pin := .high }
      squelched := true }
    pending := [.portEdge 4] }

theorem witness_StepKeepsQuietPorts :
    (PortLaw squelchState ∧ ∃ t, step squelchState = .next t)
    ∧ (ClaimLaw squelchState ∧ ∃ t, step squelchState = .next t) := by
  refine ⟨⟨?_, _, rfl⟩, ?_, _, rfl⟩
  · unfold PortLaw
    decide +kernel
  · unfold ClaimLaw
    decide +kernel

/-- The latch holds the loop status record. -/
def latchState : State :=
  { State.reset with
    xu := { resetXu with latch := some ⟨.loopStatus, List.replicate 128 5⟩ } }

theorem witness_LatchMovesByHostAccessOnly :
    (isHostWrite (.hostWrite 0 0) = true ∧ ∃ t, exec (.hostWrite 0 0) State.reset = .next t)
    ∧ (isReset .exchangeReset = true ∧ ∃ t, exec .exchangeReset State.reset = .next t)
    ∧ (isHostWrite .epochReport = false ∧ isHostRead .epochReport = false
      ∧ isReset .epochReport = false ∧ ∃ t, exec .epochReport State.reset = .next t)
    ∧ ((∃ t, exec (.readLatchedWord 0x7FF) latchState = .next t)
      ∧ (0x7FF : WordAddr).toNat = recordBase .loopStatus + 127
      ∧ 127 + 1 = recordLength .loopStatus
      ∧ latchState.xu.latch = some ⟨.loopStatus, List.replicate 128 5⟩)
    ∧ ((∃ t, exec (.readRecordFirstWord 0xAA0) State.reset = .next t)
      ∧ (0xAA0 : WordAddr).toNat = recordBase (.alarm 18) + 0)
    ∧ ((∃ t, exec (.readLatchedWord 0xAAF) State.reset = .next t)
      ∧ (0xAAF : WordAddr).toNat = recordBase (.alarm 18) + 15 ∧ 15 < recordLength (.alarm 18)
      ∧ State.reset.xu.latch = none) :=
  ⟨⟨rfl, _, rfl⟩, ⟨rfl, _, rfl⟩, ⟨rfl, rfl, rfl, _, rfl⟩, ⟨⟨_, rfl⟩, rfl, rfl, rfl⟩,
    ⟨⟨_, rfl⟩, rfl⟩, ⟨_, rfl⟩, rfl, by decide, rfl⟩

/-- A history of two levels, a HOST step pending, a LOOP step pending. -/
def learnedState : State :=
  { State.reset with hou := { resetHou with levels := resetHou.levels.set 0 700, fill := 2 } }
def loopStepState : State :=
  { State.reset with tsu := { resetTsu with step := some (.loop 2000000) } }
def hostStepState : State :=
  { State.reset with tsu := { resetTsu with step := some (.host (-5) 2) } }

theorem witness_PowerOnResetsThePart :
    (0 : BitVec 2) = 0 ∧ (1 : BitVec 2) = 1 ∧ (2 : BitVec 2) = 2 ∧ (3 : BitVec 2) = 3 := by decide

theorem witness_LineResetKeepsTheHistory :
    State.reset.hou.fill = 0 ∧ learnedState.hou.fill ≠ 0 := by decide

theorem witness_ExchangeResetLeavesTiming :
    loopStepState.tsu.step = some (.loop 2000000)
    ∧ ∀ v, hostStepState.tsu.step ≠ some (.loop v) := by
  refine ⟨rfl, ?_⟩
  intro v h
  cases h

/-! ### Witnesses: host access -/

/-- Slot 0 TAKEN, sample slot 1 READY. -/
def busyState : State :=
  { State.reset with
    xu := { resetXu with slots := resetXu.slots.set 0 { freeSlot with state := .taken } }
    pku := { resetPku with board := resetPku.board.set 1 { emptySample with state := .ready } } }

theorem witness_HostWritesReachTheirOwner :
    ((0x081 : WordAddr).toNat = 0x080 + 32 * 0 + 1 ∧ State.reset.xu.slots[0].state = .free)
    ∧ (0x082 : WordAddr).toNat = 0x080 + 32 * 0 + 2
    ∧ (0x27F : WordAddr).toNat = 0x080 + 32 * 15 + (8 + 23)
    ∧ ((0x087 : WordAddr).toNat = 0x080 + 32 * 0 + 7 ∧ busyState.xu.slots[0].state ≠ .free)
    ∧ ((0x281 : WordAddr).toNat = 0x280 + 32 * 0 + 1 ∧ State.reset.pku.board[0].state = .empty)
    ∧ (0x67D : WordAddr).toNat = 0x280 + 32 * 31 + (6 + 23)
    ∧ ((0x2BF : WordAddr).toNat = 0x280 + 32 * 1 + 31 ∧ busyState.pku.board[1].state = .ready)
    ∧ (15 : WordAddr).toNat < 16 ∧ (16 ≤ (37 : WordAddr).toNat ∧ (37 : WordAddr).toNat % 4 < 2)
    ∧ (0x97F : WordAddr).toNat < 0x980
    ∧ ((0xAAF : WordAddr).toNat < 0xAB0 ∧ (0xAAF : WordAddr).toNat % 16 ≠ 8)
    ∧ (0xAB0 : WordAddr).toNat ≠ 0xFFE ∧ ((0xFFE : WordAddr).toNat = 0xFFE ∧ (2 : Word) ≠ 1)
    ∧ ((0x080 : WordAddr).toNat = 0x080 + 32 * 0 ∧ 1 < (2 : Word).toNat
      ∧ busyState.xu.slots[0].state ≠ .free ∧ busyState.xu.slots[0].state ≠ .done)
    ∧ ((0x660 : WordAddr).toNat = 0x280 + 32 * 31 ∧ (0 : Word) ≠ 1)
    ∧ (0x2A0 : WordAddr).toNat = 0x280 + 32 * 1 := by
  decide

theorem witness_ReadsGoThroughTheLatch :
    ((0x780 : WordAddr).toNat = recordBase .loopStatus + 0 ∧ 0 < recordLength .loopStatus)
    ∧ ((0x7FF : WordAddr).toNat = recordBase .loopStatus + 127
      ∧ 127 < recordLength .loopStatus
      ∧ latchState.xu.latch = some ⟨.loopStatus, List.replicate 128 5⟩)
    ∧ ((0xAAF : WordAddr).toNat = recordBase (.alarm 18) + 15 ∧ 15 < recordLength (.alarm 18)
      ∧ ∀ c, latchState.xu.latch = some c → c.record ≠ .alarm 18) := by
  refine ⟨by decide, ⟨by decide, by decide, rfl⟩, by decide, by decide, ?_⟩
  intro c h
  cases h
  decide

theorem witness_PlainWordsRead :
    (0 : WordAddr).toNat = 0 ∧ (9 : WordAddr).toNat = 9 ∧ (36 : WordAddr).toNat = 16 + 4 * 5
    ∧ (17 : WordAddr).toNat = 17 + 4 * 0 ∧ (38 : WordAddr).toNat = 18 + 4 * 5
    ∧ (39 : WordAddr).toNat = 19 + 4 * 5
    ∧ (0x080 : WordAddr).toNat = 0x080 + 32 * 0 + 0 ∧ (0x27F : WordAddr).toNat = 0x080 + 32 * 15 + 31
    ∧ (0x280 : WordAddr).toNat = 0x280 + 32 * 0 + 0 ∧ (0x67F : WordAddr).toNat = 0x280 + 32 * 31 + 31
    ∧ (10 ≤ (15 : WordAddr).toNat ∧ (15 : WordAddr).toNat < 16)
    ∧ (0xFFC : WordAddr).toNat = 0xFFC ∧ (0xFFD : WordAddr).toNat = 0xFFD
    ∧ (40 : WordAddr).toNat < 0x080 ∧ (0xAFF : WordAddr).toNat < 0xB00
    ∧ (0xFFB : WordAddr).toNat < 0xFFC ∧ 0xFFE ≤ (0xFFF : WordAddr).toNat := by decide

/-! ### Witnesses: the timescale -/

/-- The reset state with its timescale unit changed. -/
def withTsu (f : Tsu → Tsu) : State := { State.reset with tsu := f resetTsu }

/-- A state whose second is complete with no overshoot, changed further. -/
def dueState (f : Tsu → Tsu) : State := withTsu fun t => f { t with due := some 0 }

theorem witness_OscillatorCycleAdvances :
    (∀ h, (withTsu id).tsu.hold = some h → h.run < h.length)
    ∧ ((withTsu fun t => { t with frac := 999999900000, freq := 50000000 }).tsu.due = none
      ∧ (withTsu fun t => { t with frac := 999999900000, freq := 50000000 }).tsu.hold = none
      ∧ (50000000 : Int).natAbs ≤ 50000000)
    ∧ (∀ h, (withTsu fun t => { t with hold := some ⟨1, 0⟩ }).tsu.hold = some h →
        h.run < h.length) := by
  refine ⟨?_, by decide, ?_⟩
  · intro h hh
    cases hh
  · intro h hh
    cases hh
    decide

theorem witness_BoundarySettlesTheLabel :
    ((dueState id).tsu.due = some 0 ∧ (dueState id).tsu.setTime = none
      ∧ (dueState id).tsu.leap = none)
    ∧ (dueState fun t => { t with leap := some ⟨0, .insert, 1⟩ }).tsu.leap
        = some ⟨(dueState id).tsu.label, .insert, 1⟩
    ∧ (dueState fun t => { t with leap := some ⟨0, .delete, 1⟩ }).tsu.leap
        = some ⟨(dueState id).tsu.label, .delete, 1⟩
    ∧ ((4 : Label).toNat < (5 : Label).toNat
      ∧ (dueState fun t => { t with label := 5, leap := some ⟨4, .insert, 1⟩ }).tsu.leap
        = some ⟨4, .insert, 1⟩)
    ∧ ((5 : Label).toNat < (6 : Label).toNat
      ∧ (dueState fun t => { t with label := 5, leap := some ⟨6, .insert, 1⟩ }).tsu.leap
        = some ⟨6, .insert, 1⟩)
    ∧ (dueState fun t =>
        { t with setTime := some ⟨5004, 2⟩, leap := some ⟨5003, .insert, 1⟩ }).tsu.setTime
        = some ⟨5004, 2⟩ := by decide

theorem witness_BoundaryStartsTheSecond :
    ((dueState id).tsu.step = none ∧ 0 < 1000000000000)
    ∧ ((dueState fun t => { t with step := some (.host 500000000000 1) }).tsu.step
        = some (.host 500000000000 1)
      ∧ (PendingStep.host 500000000000 1).value + 99999 < 1000000000000
      ∧ 0 < (PendingStep.host 500000000000 1).value)
    ∧ ((dueState fun t => { t with step := some (.loop 0) }).tsu.step = some (.loop 0)
      ∧ (PendingStep.loop 0).value = 0)
    ∧ ((dueState fun t => { t with step := some (.loop (-1)) }).tsu.step = some (.loop (-1))
      ∧ (PendingStep.loop (-1)).value < 0 ∧ (PendingStep.loop (-1)).value ≠ 0
      ∧ ({ dueState (fun t => { t with step := some (.loop (-1)) }) with
          cap := { resetCap with
            div := resetCap.div.set 3 ⟨.loading, 0, none, none, none, none⟩ } } : State).cap.div[3].state
        ≠ .idle)
    ∧ (dueState id).tsu.warmCount = 0
    ∧ 0 < (dueState fun t => { t with warmCount := 1 }).tsu.warmCount := by decide

/-- A step pending at a full step log that the chain of FRQ-A needs whole. -/
def fullLogState : State :=
  { dueState fun t => { t with
      step := some (.loop 5)
      stepLog := [⟨1, 2, 1⟩, ⟨2, 2, 2⟩, ⟨3, 2, 3⟩, ⟨4, 2, 4⟩]
      logged := 4 } with
    cap := { resetCap with
      div := resetCap.div.set 0 ⟨.counting, 5, some ⟨⟨0, 0⟩, 4, 1, 0, true⟩, none, none, none⟩ } }

theorem witness_BoundaryStartsTheSecond_full_log :
    fullLogState.tsu.due = some 0 ∧ fullLogState.tsu.step = some (.loop 5)
    ∧ (PendingStep.loop 5).value ≠ 0
    ∧ fullLogState.tsu.stepLog = ⟨1, 2, 1⟩ :: [⟨2, 2, 2⟩, ⟨3, 2, 3⟩, ⟨4, 2, 4⟩]
    ∧ (∀ l ∈ fullLogState.tsu.stepLog, Needed fullLogState l)
    ∧ (1 ≤ fullLogState.tsu.logged)
    ∧ ∀ l ∈ [(⟨2, 2, 2⟩ : LoggedStep), ⟨3, 2, 3⟩, ⟨4, 2, 4⟩], 1 < l.entry := by
  refine ⟨rfl, rfl, by decide, rfl, ?_, by decide, by decide⟩
  intro l hl
  refine ⟨0, .inl ⟨⟨⟨0, 0⟩, 4, 1, 0, true⟩, rfl, ?_⟩⟩
  revert l
  decide

/-- A full step log that no divider needs. -/
theorem witness_BoundaryStartsTheSecond_unneeded :
    fullLogState.tsu.stepLog.length = 4
    ∧ ∃ l ∈ fullLogState.tsu.stepLog, ¬Needed { fullLogState with cap := resetCap } l := by
  refine ⟨rfl, ⟨1, 2, 1⟩, by decide, ?_⟩
  rintro ⟨d, ⟨ch, h, -⟩ | ⟨h, -⟩⟩ <;> revert h <;> fin_cases d <;> simp [resetCap]

theorem witness_BoundaryReachesEveryBlock :
    ((dueState id).tsu.due = some 0 ∧ (dueState id).tsu.step = none)
    ∧ (dueState fun t => { t with step := some (.host 7 1) }).tsu.step = some (.host 7 1)
    ∧ (dueState fun t => { t with step := some (.loop 7) }).tsu.step = some (.loop 7) := by decide

/-- A due state with slot 0 TAKEN. -/
def parkedState (f : Tsu → Tsu) : State := { dueState f with xu := busyState.xu }

theorem witness_BoundaryCompletesTheParked :
    ((parkedState fun t => { t with setTime := some ⟨9, 0⟩ }).tsu.due = some 0
      ∧ (parkedState fun t => { t with setTime := some ⟨9, 0⟩ }).xu.slots[0].state = .taken
      ∧ (parkedState fun t => { t with setTime := some ⟨9, 0⟩ }).tsu.setTime = some ⟨9, 0⟩)
    ∧ (parkedState fun t => { t with leap := some ⟨0, .delete, 0⟩ }).tsu.leap
        = some ⟨(parkedState id).tsu.label, .delete, 0⟩
    ∧ ((0 : Label).toNat < (1 : Label).toNat
      ∧ (parkedState fun t => { t with label := 1, leap := some ⟨0, .insert, 0⟩ }).tsu.leap
        = some ⟨0, .insert, 0⟩)
    ∧ (parkedState fun t => { t with step := some (.host 3 0) }).tsu.step = some (.host 3 0) := by
  decide

/-- A SET-TIME, a leap that it misses and a HOST step, decided by one boundary. -/
def manyParkedState : State :=
  { dueState fun t => { t with
      setTime := some ⟨5004, 1⟩
      leap := some ⟨5002, .insert, 2⟩
      step := some (.host (-3) 3) } with
    xu := { resetXu with
      slots := ((resetXu.slots.set 1 { freeSlot with state := .taken }).set 2
        { freeSlot with state := .taken }).set 3 { freeSlot with state := .taken } } }

theorem witness_BoundaryCompletesTheParked_together :
    manyParkedState.tsu.due = some 0 ∧ manyParkedState.tsu.setTime = some ⟨5004, 1⟩
    ∧ manyParkedState.tsu.leap = some ⟨5002, .insert, 2⟩
    ∧ (5002 : Label).toNat + 1 < (5004 : Label).toNat
    ∧ manyParkedState.tsu.step = some (.host (-3) 3)
    ∧ (∀ k n, manyParkedState.tsu.leap ≠ some ⟨manyParkedState.tsu.label, k, n⟩)
    ∧ ∀ n ∈ [(1 : Slot), 2, 3], manyParkedState.xu.slots[n].state = .taken := by
  refine ⟨rfl, rfl, rfl, by decide, rfl, ?_, by decide⟩
  intro k n h
  have other : manyParkedState.tsu.leap.map (·.target) ≠ some manyParkedState.tsu.label := by decide
  exact other (congrArg (Option.map (·.target)) h)

/-- The reset state with its queues changed. -/
def withWires (f : Wires → Wires) (s : State) : State := { s with wires := f s.wires }

theorem witness_HoldEndAndLoopNotices :
    ((withTsu fun t => { t with hold := some ⟨5, 5⟩ }).tsu.hold = some ⟨5, 5⟩ ∧ 5 ≤ 5
      ∧ 5 - 5 < 1000000000000)
    ∧ ((withWires (fun w => { w with tsuIn := [.step 9] }) State.reset).wires.tsuIn = [.step 9]
      ∧ State.reset.tsu.step = none)
    ∧ (withWires (fun w => { w with tsuIn := [.state .acquire .track] }) loopStepState).wires.tsuIn
        = [.state .acquire .track]
    ∧ ((withWires (fun w => { w with tsuIn := [.state .freeRun .acquire] })
        { hostStepState with xu := { resetXu with
            slots := resetXu.slots.set 2 { freeSlot with state := .taken } } }).xu.slots[2].state
        = .taken)
    ∧ (withWires (fun w => { w with tsuIn := [.state .track .holdover] }) hostStepState).wires.tsuIn
        = [.state .track .holdover]
    ∧ ((withWires (fun w => { w with tsuIn := [.state .track .holdover] }) loopStepState).wires.tsuIn
        = [.state .track .holdover] ∧ LoopState.track ≠ .acquire)
    ∧ (hostStepState.tsu.step = some (.host (-5) 2) ∧ hostStepState.xu.slots[2].state ≠ .taken
      ∧ State.reset.tsu.step = none) := by decide

/-- Warm-up ended, PPS-A QUALIFIED. -/
def warmEndState : State :=
  { trackState with
    qsu := { trackState.qsu with selected := none }
    wires := { noWires with warmEnd := true } }

theorem witness_WarmUpEndSelects :
    warmEndState.wires.warmEnd = true ∧ warmEndState.wires.lpuBnd = []
    ∧ warmEndState.tsu.warmCount = 0 ∧ warmEndState.qsu.forced = none
    ∧ warmEndState.qsu.forcedHoldover = false ∧ warmEndState.qsu.selected = none
    ∧ (({ warmEndState.qsu with forced := some 0 } : Qsu).forced = some 0
      ∧ Candidate warmEndState.qsu 0) := by
  unfold Candidate
  decide

/-- A review between the boundary that ends the warm-up count and WARM_UP_END selects nothing (R76). -/
theorem test_review_waits_for_warm_up_end :
    (review none warmEndState).qsu.selected = none
    ∧ (review none { warmEndState with wires := noWires }).qsu.selected = some 0 := by decide

/-! ### Witnesses: reference inputs -/

/-- A boundary that began second 1. -/
def aBoundary : Boundary := ⟨1, 0, 1, false, false, false, none, false, none⟩

/-- PPS-A with this window, at the half-point of second 1. -/
def ppsState (w : PpsWindow) : State :=
  { State.reset with
    tsu := { resetTsu with label := 1, second := 1, frac := 500000000000 }
    cap := { resetCap with
      pps := resetCap.pps.set 0 ⟨w, some ⟨some 40, true⟩, none, 0, none⟩ } }

theorem witness_PpsWindowsRecord :
    ((ppsState (.opened emptyRecord)).wires.ppsBnd[0] = []
      ∧ (ppsState (.opened emptyRecord)).cap.pps[0].window = .opened emptyRecord)
    ∧ (∀ r, (ppsState .idle).cap.pps[0].window ≠ .opened r)
    ∧ ((withWires (fun w => { w with ppsBnd := w.ppsBnd.set 0 [aBoundary] })
        (ppsState (.opened emptyRecord))).wires.ppsBnd[0] = aBoundary :: []
      ∧ emptyRecord.bnd = none)
    ∧ (ppsState .idle).cap.pps[0].window = .idle := by
  refine ⟨by decide, ?_, by decide, by decide⟩
  intro r h
  cases h

theorem witness_WindowCloseMeasures :
    ((ppsState .idle).tsu.hold = none ∧ 500000000000 ≤ (ppsState .idle).tsu.frac)
    ∧ ((ppsState (.opened ⟨some ⟨⟨1, 250⟩, false, true⟩, some ⟨⟨1, 100250⟩, false, true⟩, 1,
          some aBoundary⟩)).cap.pps[0].window
        = .opened ⟨some ⟨⟨1, 250⟩, false, true⟩, some ⟨⟨1, 100250⟩, false, true⟩, 1,
          some aBoundary⟩
      ∧ aBoundary.second = (ppsState .idle).tsu.second
      ∧ (ppsState .idle).cap.pps[0].prev = some ⟨some 40, true⟩)
    ∧ (ppsState (.opened ⟨none, none, 0, some aBoundary⟩)).cap.pps[0].window
        = .opened ⟨none, none, 0, some aBoundary⟩
    ∧ (({ ppsState .idle with cap := { resetCap with
        pps := resetCap.pps.set 0 ⟨.idle, some ⟨some 40, false⟩, none, 0, none⟩ } } : State).cap.pps[0].prev
        = some ⟨some 40, false⟩)
    ∧ ((ppsState (.waiting 1)).cap.pps[0].window = .waiting (ppsState (.waiting 1)).tsu.second
      ∧ (ppsState (.waiting 1)).wires.ppsBnd[0] = []) := by decide

/-- LINE-A's divider as given, its pin active. -/
def divState (v : Divider) : State :=
  { State.reset with
    cap := { resetCap with div := resetCap.div.set 2 v, lineOk := resetCap.lineOk.set 0 true } }

theorem witness_DividersCountAndLoseTheLine :
    State.reset.cap.div[2].state = .idle
    ∧ (divState ⟨.loading, 0, none, none, none, none⟩).cap.div[2].state = .loading
    ∧ (divState ⟨.counting, 24999999, none, none, none, none⟩).cap.div[2].state = .counting
    ∧ ((withWires (fun w => { w with divBnd := w.divBnd.set 2 [aBoundary] })
        (divState ⟨.counting, 1, some ⟨⟨0, 0⟩, 0, 1, 0, true⟩, none, none, none⟩)).wires.divBnd[2]
        = aBoundary :: []
      ∧ (divState ⟨.counting, 1, some ⟨⟨0, 0⟩, 0, 1, 0, true⟩, none, none, none⟩).cap.div[2].chain
        = some ⟨⟨0, 0⟩, 0, 1, 0, true⟩)
    ∧ ((withWires (fun w => { w with divBnd := w.divBnd.set 2 [aBoundary] })
        (divState ⟨.counting, 1, none, none, none, none⟩)).wires.divBnd[2] = aBoundary :: []
      ∧ (divState ⟨.counting, 1, none, none, none, none⟩).cap.div[2].chain = none)
    ∧ (divState ⟨.idle, 0, none, none, none, none⟩).cap.lineOk[0] = true
    ∧ State.reset.cap.lineOk[1] = false := by decide

theorem witness_MarkerMeasures :
    ((divState ⟨.counting, 25000000, some ⟨⟨0, 0⟩, 1, 1, 0, true⟩, none, none, none⟩).cap.div[2]
        = ⟨.counting, 25000000, some ⟨⟨0, 0⟩, 1, 1, 0, true⟩, none, none, none⟩
      ∧ State.reset.qsu.refs[divRef 2].cfg.nominal ≤ 25000000
      ∧ (∀ l : LineId, (2 : DividerId) = lineDiv l →
        (divState ⟨.counting, 25000000, none, none, none, none⟩).cap.lineOk[l] = true)
      ∧ State.reset.wires.divBnd[2] = [] ∧ State.reset.tsu.hold = none)
    ∧ ((3 : DividerId) = lineDiv 1 ∧ ({ divState ⟨.idle, 0, none, none, none, none⟩ with
        cap := { resetCap with
          div := resetCap.div.set 3 ⟨.counting, 25000000, none, none, none, none⟩ } } : State).cap.lineOk[1]
        = false)
    ∧ (divState ⟨.counting, 25000000, none, none, none, none⟩).cap.div[2].chain = none
    ∧ ({ divState ⟨.counting, 25000000, none, none, none, none⟩ with
        tsu := { resetTsu with hold := some ⟨9, 1⟩ } } : State).tsu.hold ≠ none := by
  decide

theorem witness_MissingTimerExpires :
    ((divState ⟨.counting, 0, some ⟨⟨0, 0⟩, 1, 3, 0, true⟩, some 0, none, none⟩).cap.div[2].timer
        = some 0 ∧ State.reset.wires.divBnd[2] = [] ∧ 3 < 4)
    ∧ ((divState ⟨.counting, 0, some ⟨⟨0, 0⟩, 1, 4, 0, true⟩, some 0, none, none⟩).cap.div[2].timer
        = some 0 ∧ 4 ≤ 4) := by decide

/-! ### Witnesses: packet references -/

theorem witness_SampleIsJudged :
    (busyState.pku.board[1].state = .ready
      ∧ ({ emptySample with ref := 7 } : Sample).ref = BitVec.ofNat 16 (6 + 1))
    ∧ (({ State.reset with pku := { resetPku with
          board := resetPku.board.set 0 { emptySample with ref := 6 } } } : State).pku.board[0].state
        = .empty ∧ (6 : Word) = BitVec.ofNat 16 (6 + 0) ∧ State.reset.wires.pkuBnd = []
      ∧ State.reset.qsu.refs[pktRef 0].cfg.enabled = false)
    ∧ ((5 : Word) ≠ 6 ∧ (5 : Word) ≠ 7
      ∧ ({ emptySample with ref := 5 } : Sample).state = .empty) := by decide

/-- PKT-A enabled, with one sample in span and a boundary to take. -/
def packetState : State :=
  { State.reset with
    qsu := { resetQsu with
      refs := resetQsu.refs.set 6 { resetRef 6 with
        cfg := { defaultRefConfig 6 with enabled := true } } }
    pku := { resetPku with
      refs := resetPku.refs.set 0 { resetPacketRef with
        window := [⟨⟨0, 0⟩, ⟨0, 50⟩, ⟨0, 60⟩, ⟨0, 100⟩, 5, 90, 0, false, false⟩] } }
    wires := { noWires with pkuBnd := [aBoundary] } }

/-- Each reason of R42 and R43 at its first value, with none before it: the words of t1 to t4 are given,
the present instant is 4 s after label 10. -/
def sampleWith (t1 t2 t3 t4 : List Word) : Sample :=
  { emptySample with
    ref := 6
    words := Vector.ofFn fun i => (t1 ++ t2 ++ t3 ++ t4).getD i.val 0 }

/-- A state whose PKT-A is enabled, at this instant, with this step mark. -/
def judgeState (l : Label) (ps : Nat) (mark : Option Label) : State :=
  { packetState with
    tsu := { resetTsu with label := l, frac := ps }
    pku := { packetState.pku with stepMark := mark } }

theorem witness_SampleIsJudged_reasons :
    judgeSample (judgeState 10 5 none) (sampleWith [10, 0, 0, 0x1000, 0xD4A5, 0xE8] [10, 0, 0]
        [10, 0, 0] [10, 0, 0]) ⟨10, 5⟩ = .badField
    ∧ judgeSample (judgeState 10 5 none) (sampleWith [10, 0, 0, 0, 0, 0] [10, 0, 0, 1, 0, 0]
        [10, 0, 0, 0, 0, 0] [10, 0, 0]) ⟨10, 5⟩ = .order
    ∧ judgeSample (judgeState 10 5 none) (sampleWith [9, 0, 0, 0, 0, 0] [10, 0, 0, 1, 0, 0]
        [10, 0, 0, 1, 0, 0] [10, 0, 0]) ⟨10, 5⟩ = .range
    ∧ judgeSample (judgeState 10 5 none) (sampleWith [10, 0, 0, 2, 0, 0] [10, 0, 0, 0, 0, 0]
        [10, 0, 0, 0, 0, 0] [10, 0, 0, 1, 0, 0]) ⟨10, 5⟩ = .negative
    ∧ judgeSample (judgeState 14 1 none) (sampleWith [10, 0, 0, 0, 0, 0] [10, 0, 0, 0, 0, 0]
        [10, 0, 0, 0, 0, 0] [10, 0, 0]) ⟨14, 1⟩ = .stale
    ∧ judgeSample (judgeState 14 0 (some 11)) (sampleWith [10, 0, 0, 0, 0, 0] [10, 0, 0, 0, 0, 0]
        [10, 0, 0, 0, 0, 0] [10, 0, 0]) ⟨14, 0⟩ = .stale
    ∧ judgeSample (judgeState 10 0 none) (sampleWith [10, 0, 0, 1, 0, 0] [10, 0, 0, 1, 0, 0]
        [10, 0, 0, 1, 0, 0] [10, 0, 0, 1, 0, 0]) ⟨10, 0⟩ = .future
    ∧ judgeSample (judgeState 14 0 none) (sampleWith [10, 0, 0, 0, 0, 0] [10, 0, 0, 0, 0, 0]
        [10, 0, 0, 0, 0, 0] [10, 0, 0]) ⟨14, 0⟩ = .accepted := by decide +kernel

theorem witness_PacketEvaluationPicksLeastDelay :
    packetState.wires.pkuBnd = aBoundary :: []
    ∧ (packetState.pku.refs[0].window
        = [] ++ ⟨⟨0, 0⟩, ⟨0, 50⟩, ⟨0, 60⟩, ⟨0, 100⟩, 5, 90, 0, false, false⟩ :: []
      ∧ inSpanOf 0 packetState.qsu.refs[6].cfg.span
        ⟨⟨0, 0⟩, ⟨0, 50⟩, ⟨0, 60⟩, ⟨0, 100⟩, 5, 90, 0, false, false⟩ = true)
    ∧ (∀ x ∈ State.reset.pku.refs[1].window, inSpanOf 0 2 x = false)
    ∧ ((∃ ins : PacketId → WindowEntry → Bool, ∀ (k : PacketId) (x : WindowEntry), ins k x = true ↔
        instDiff x.t2 ⟨0, 0⟩ < 1000000000000
        ∧ -(((packetState.qsu.refs[pktRef k].cfg.span : Int) - 1) * 1000000000000)
          ≤ instDiff x.t2 ⟨0, 0⟩)
      ∧ ({ resetPacketRef with prev := some ⟨some 3, true⟩ } : PacketRef).prev
        = some ⟨some 3, true⟩
      ∧ packetState.pku.refs[0].prev = none
      ∧ State.reset.qsu.refs[pktRef 1].cfg.enabled = false)
    ∧ stepOf aBoundary = 0 ∧ stepOf { aBoundary with step := some (7, .host) } ≠ 0 := by
  refine ⟨by decide, by decide, by decide, ⟨⟨fun k x => decide _, fun k x => decide_eq_true_iff⟩,
    rfl, rfl, rfl⟩, by decide, by decide⟩

/-! ### Witnesses: qualification and selection -/

/-- A raw measurement of PPS-A. -/
def aMeas (out : RawOutcome) (e delta : Option Int) : RawMeas :=
  ⟨0, 7, some false, out, e, delta, none, false, 1, none, none, none, 0, 0, 0⟩

/-- PPS-A enabled with this state and these counts, and a measurement of it waiting. -/
def refState (st : RefState) (qualify bad dwell : Nat) (m : RawMeas) : State :=
  { State.reset with
    qsu := { resetQsu with
      refs := resetQsu.refs.set 0 { resetRef 0 with
        cfg := { defaultRefConfig 0 with enabled := true }
        state := st
        qualifyCount := qualify
        badCount := bad
        dwellCount := dwell } }
    wires := { noWires with arrivals := [m] } }

theorem witness_ArrivalsAreJudged :
    ((refState .disabled 0 0 0 (aMeas .clean none none)).wires.arrivals
        = [aMeas .clean none none]
      ∧ (refState .disabled 0 0 0 (aMeas .clean none none)).qsu.refs[0].state = .disabled)
    ∧ ((refState .qualifying 0 0 0 (aMeas .clean (some 3) (some 100001))).qsu.refs[0].state
        ≠ .disabled
      ∧ (refState .qualifying 0 0 0 (aMeas .clean (some 3) (some 100001))).qsu.refs[0].cfg.freqTol
        < (100001 : Int).natAbs)
    ∧ (refKind 0 = .pps ∧ (500000 : Nat) < (500001 : Int).natAbs
      ∧ ({ refState .faulted 0 0 0 (aMeas .clean (some 500001) none) with
          lpu := { resetLpu with state := .track } } : State).lpu.state = .track)
    ∧ (aMeas .missing none none).outcome = .missing ∧ (aMeas .width none none).outcome = .width := by
  decide

theorem witness_ArrivalsMoveTheReference :
    ((refState .qualifying 58 0 0 (aMeas .clean none none)).wires.arrivals
        = aMeas .clean none none :: []
      ∧ (refState .qualifying 58 0 0 (aMeas .clean none none)).qsu.selected ≠ some 0
      ∧ 58 + 1 < (defaultRefConfig 0).qualifyTime)
    ∧ (defaultRefConfig 0).qualifyTime ≤ 59 + 1
    ∧ ((refState .qualified 60 2 0 (aMeas .missing none none)).qsu.refs[0].cfg.badLimit ≤ 2
      ∧ (refState .qualified 60 2 0 (aMeas .clean none (some 100001))).qsu.refs[0].state
        = .qualified)
    ∧ (refState .qualified 60 1 0 (aMeas .missing none none)).qsu.refs[0].badCount
        < (defaultRefConfig 0).badLimit
    ∧ (refState .faulted 0 0 9 (aMeas .clean none none)).qsu.refs[0].dwellCount
        < (defaultRefConfig 0).dwell
    ∧ ((defaultRefConfig 0).dwell
        ≤ (refState .faulted 0 0 10 (aMeas .clean none none)).qsu.refs[0].dwellCount
      ∧ (refState .faulted 0 0 10 (aMeas .clean none none)).qsu.refs[0].declaredValid = true
      ∧ ∀ l : LineId, (0 : Ref) = lineRef l → State.reset.qsu.lineOk[l] = true) := by decide

theorem witness_OutsideFaults :
    ((withWires (fun w => { w with verdicts := [0] }) trackState).wires.verdicts = 0 :: []
      ∧ trackState.qsu.refs[0].state = .qualified ∧ trackState.qsu.refs[1].state ≠ .qualified)
    ∧ (({ State.reset with qsu := { resetQsu with lineOk := #v[true, false] } } : State).qsu.lineOk[0]
        = true ∧ State.reset.qsu.refs[lineRef 0].state = .disabled)
    ∧ (({ trackState with qsu := { trackState.qsu with
          refs := trackState.qsu.refs.set 4 trackState.qsu.refs[0]
          selected := some 4
          lineOk := #v[true, false] } } : State).qsu.refs[lineRef 0].state = .qualified)
    ∧ State.reset.qsu.lineOk[1] = false := by decide

/-- A parameter area from its first words. -/
def params (ws : List Word) : Vector Word 24 := Vector.ofFn fun i => ws.getD i.val 0

/-- The request unit holds slot 5 with a request of this kind. -/
def heldState (kind : Word) (ws : List Word) (s : State) : State :=
  { s with xu := { resetXu with
      slots := resetXu.slots.set 5 ⟨.taken, kind, 0, 0, 0, params ws⟩
      unit := some 5 } }

theorem test_held (kind : Word) (ws : List Word) (s : State) :
    Held 5 kind.toNat (heldState kind ws s) := ⟨rfl, rfl, rfl⟩

theorem witness_SelectionRequestsRunTheReview :
    (Held 5 2 (heldState 2 [7, 15] trackState) ∧ Params.w (params [7, 15]) 0 = BitVec.ofNat 16 7
      ∧ Params.n1 (params [7, 15]) 1 ≤ 15)
    ∧ (8 ≤ (Params.w (params [8]) 0).toNat ∧ 15 < Params.n1 (params [0, 16]) 1)
    ∧ (Held 5 4 (heldState 4 [1, 0xFFFF] trackState) ∧ Params.w (params [1, 0xFFFF]) 1 = 0xFFFF)
    ∧ (1 < (Params.w (params [2]) 0).toNat ∧ 8 ≤ (Params.w (params [0, 8]) 1).toNat
      ∧ (Params.w (params [0, 8]) 1).toNat < 0xFFFF)
    ∧ (Held 5 5 (heldState 5 [1] trackState) ∧ Params.w (params [1]) 0 = 1
      ∧ trackState.lpu.state ≠ .freeRun ∧ State.reset.lpu.state = .freeRun
      ∧ trackState.qsu.forcedHoldover = false
      ∧ ({ trackState.qsu with forcedHoldover := true } : Qsu).forcedHoldover = true)
    ∧ Params.w (params [2]) 0 = 2 ∧ Params.w (params [3]) 0 ≠ 1 ∧ Params.w (params [3]) 0 ≠ 2 := by
  unfold Held
  decide +kernel

theorem witness_DeclareReferenceFaults :
    (Held 5 3 (heldState 3 [0, 0] trackState) ∧ Params.w (params [0, 0]) 0 = BitVec.ofNat 16 0
      ∧ Params.w (params [0, 0]) 1 = 0 ∧ trackState.qsu.refs[0].declaredValid ≠ false
      ∧ trackState.qsu.refs[0].state = .qualified)
    ∧ (Params.w (params [1, 0]) 0 = BitVec.ofNat 16 1 ∧ trackState.qsu.refs[1].state = .disabled)
    ∧ (Params.w (params [7, 1]) 1 = 1 ∧ trackState.qsu.refs[7].declaredValid = true)
    ∧ 8 ≤ (Params.w (params [8, 0]) 0).toNat ∧ 1 < (Params.w (params [0, 2]) 1).toNat := by
  unfold Held
  decide +kernel

/-- The parameters of a CONFIGURE-REFERENCE that enables LINE-A at 25 MHz; priority 15. -/
def lineParams : List Word :=
  [4, 1, 15, 0, 0, 0, 0, 0, 0, 0, 2000, 0, 30, 10, 2, 0x7840, 0x017D, 0x2D00, 0x0131]

/-- Parameters of a CONFIGURE-REFERENCE that enables PPS-A. -/
def ppsParams : List Word :=
  [0, 1, 3, 0, 0, 0, 0, 0x4240, 0x000F, 0, 2000, 0, 30, 10, 2, 1000, 0, 0, 2000]

/-- Parameters of a CONFIGURE-REFERENCE that enables the second packet reference. -/
def packetParams : List Word :=
  [7, 1, 3, 0, 0, 0, 0, 0x4240, 0x000F, 0, 2000, 0, 30, 10, 2, 4, 0x4240, 0x000F]

theorem witness_ConfigureReferenceRestarts :
    (Held 5 1 (heldState 1 lineParams State.reset)
      ∧ Params.w (params lineParams) 0 = BitVec.ofNat 16 4
      ∧ (refConfigOf (params lineParams) 4).map (·.1.enabled) = some true
      ∧ State.reset.qsu.refs[4].declaredValid = true ∧ State.reset.qsu.lineOk[0] = false
      ∧ State.reset.tsu.hold = none ∧ State.reset.tsu.frac < 500000000000)
    ∧ (∀ m ∈ State.reset.wires.arrivals, m.ref ≠ 4)
    ∧ (∃ m ∈ (withWires (fun w => { w with arrivals := [missingMeasurement 2 7] })
        State.reset).wires.arrivals, m.ref = 4)
    ∧ ((false = true) → ∀ m ∈ [missingMeasurement 2 7], m.ref ≠ 4)
    ∧ 8 ≤ (Params.w (params [8]) 0).toNat
    ∧ refConfigOf (params [4, 2]) 4 = none
    ∧ (refConfigOf (params ([4, 0] ++ lineParams.drop 2)) 4).map (·.1.enabled) = some false
    ∧ (refConfigOf (params ppsParams) 0).map (·.1.enabled) = some true
    ∧ (refConfigOf (params packetParams) 7).map (·.1.enabled) = some true := by
  unfold Held
  decide +kernel

/-! ### Witnesses: the steering loop -/

/-- The loop in this state on PPS-A, with one event waiting. -/
def loopWith (st : LoopState) (ev : LoopEvent) : State :=
  { State.reset with
    lpu := { resetLpu with state := st, followed := some 0 }
    wires := { noWires with loopIn := [ev] } }

theorem witness_SelectionChangeSetsTheLoop :
    (loopWith .freeRun (.selection none (some 7) false)).wires.loopIn
        = .selection none (some 7) false :: []
    ∧ refKind 7 = .pkt ∧ refKind 0 = .pps ∧ refKind 2 = .frq ∧ refKind 5 = .line
    ∧ (loopWith .track (.selection (some 0) none true)).wires.loopIn
        = .selection (some 0) none true :: [] := by decide

theorem witness_AcquireSteersAndLocks :
    ((loopWith .acquire (.forwarded 0 7 (some 1000000) none none false)).wires.loopIn
        = .forwarded 0 7 (some 1000000) none none false :: []
      ∧ (loopWith .acquire (.forwarded 0 7 (some 1000000) none none false)).lpu.followed = some 0
      ∧ (1000000 : Int).natAbs ≤ defaultLoopConfig.stepThreshold
      ∧ defaultLoopConfig.lockThreshold < (1000000 : Int).natAbs)
    ∧ ((50000 : Int).natAbs ≤ defaultLoopConfig.lockThreshold
      ∧ defaultLoopConfig.lockLimit ≤ min (9 + 1) 255) := by decide

theorem witness_AcquireOrdersAStep :
    ((loopWith .acquire (.forwarded 0 7 (some 1000001) none none false)).lpu.state = .acquire
      ∧ (loopWith .acquire (.forwarded 0 7 (some 1000001) none none false)).lpu.stepPending = false
      ∧ defaultLoopConfig.stepThreshold < (1000001 : Int).natAbs
      ∧ defaultLoopConfig.lockThreshold < (1000001 : Int).natAbs
      ∧ defaultLoopConfig.policy = .firstLock ∧ resetLpu.firstLockSpent = false)
    ∧ ({ resetLpu with firstLockSpent := true } : Lpu).firstLockSpent = true
    ∧ ({ resetLpu with cfg := { defaultLoopConfig with policy := .never } } : Lpu).cfg.policy
        = .never := by decide

theorem witness_TrackGatesAndUnlocks :
    ((loopWith .track (.forwarded 0 7 (some (-1000001)) none none false)).wires.loopIn
        = .forwarded 0 7 (some (-1000001)) none none false :: []
      ∧ (loopWith .track (.forwarded 0 7 none none none false)).lpu.followed = some 0
      ∧ (loopWith .track (.forwarded 0 7 none none none false)).lpu.state = .track
      ∧ (loopWith .track (.forwarded 0 7 none none none false)).lpu.stepPending = false
      ∧ defaultLoopConfig.stepThreshold < (-1000001 : Int).natAbs ∧ resetLpu.outliers < 2
      ∧ 2 ≤ ({ resetLpu with outliers := 2 } : Lpu).outliers)
    ∧ (500000 : Int).natAbs ≤ defaultLoopConfig.unlockThreshold
    ∧ ((500001 : Int).natAbs ≤ defaultLoopConfig.stepThreshold
      ∧ defaultLoopConfig.unlockThreshold < (500001 : Int).natAbs
      ∧ min (8 + 1) 255 < defaultLoopConfig.unlockLimit
      ∧ defaultLoopConfig.unlockLimit ≤ min (9 + 1) 255) := by decide

theorem witness_AssistedFollowsThePseudoPhase :
    (loopWith .assisted (.forwarded 0 7 none (some 12) (some 1) false)).wires.loopIn
        = .forwarded 0 7 none (some 12) (some 1) false :: []
    ∧ (loopWith .assisted (.forwarded 0 7 none (some 12) (some 1) false)).lpu.state = .assisted
    ∧ (loopWith .assisted (.forwarded 0 7 none (some 12) (some 1) false)).lpu.pseudo = none
    ∧ ({ resetLpu with pseudo := some 500000000000 } : Lpu).pseudo = some 500000000000 := by decide

theorem witness_LoopNoticesAndBoundary :
    ((loopWith .acquire (.forwarded 1 7 none none none false)).wires.loopIn
        = .forwarded 1 7 none none none false :: []
      ∧ (loopWith .acquire (.forwarded 1 7 none none none false)).lpu.followed ≠ some 1)
    ∧ ((loopWith .acquire (.unusable 0 7 .missing)).wires.loopIn = .unusable 0 7 .missing :: []
      ∧ (loopWith .acquire (.unusable 0 7 .missing)).lpu.state = .acquire
      ∧ (loopWith .track (.unusable 0 7 .missing)).lpu.state ≠ .acquire)
    ∧ ((withWires (fun w => { w with lpuBnd := [aBoundary] }) State.reset).wires.lpuBnd
        = aBoundary :: []
      ∧ ({ aBoundary with step := some (4, .loop) } : Boundary).step = some (4, .loop)
      ∧ aBoundary.step = none) := by decide

/-- The default parameters of a CONFIGURE-LOOP. -/
def loopParams : List Word :=
  [2, 6, 6, 13, 0x4240, 0x000F, 0, 0xA120, 0x0007, 0, 0xC350, 0, 0, 10, 10, 0x9680, 0x0098, 1]

theorem witness_ConfigureLoopReplacesAll :
    Held 5 6 (heldState 6 loopParams State.reset)
    ∧ loopConfigOf (params loopParams) = some defaultLoopConfig
    ∧ ¬Params.n1 (params [16, 16]) 0 ≤ 15 := by
  unfold Held
  decide +kernel

/-! ### Witnesses: the holdover unit -/

/-- The reset state with this holdover unit and one event waiting for it. -/
def houWith (h : Hou) (ev : HouEvent) : State :=
  { State.reset with hou := h, wires := { noWires with houIn := [ev] } }

theorem witness_HistoryIsFedPushedAndPopped :
    ((houWith resetHou (.feed 5)).wires.houIn = .feed 5 :: []
      ∧ (houWith { resetHou with position := 299 } (.feed 5)).hou.ended = false)
    ∧ (({ resetHou with ended := true, count := 150 } : Hou).ended = true
      ∧ resetHou.cfg.interval ≤ 2 * 150 ∧ 2 * 149 < resetHou.cfg.interval)
    ∧ ((houWith { resetHou with fill := 5 } .guardPop).wires.houIn = .guardPop :: []
      ∧ (houWith { resetHou with fill := 5 } .guardPop).hou.cfg.guards
        ≤ (houWith { resetHou with fill := 5 } .guardPop).hou.fill) := by decide

theorem witness_HoldoverIsEntered :
    ((houWith { resetHou with loop := .track, fill := 1 } (.state .track .holdover 5)).wires.houIn
        = .state .track .holdover 5 :: []
      ∧ (houWith resetHou (.state .track .holdover 5)).hou.ended = false)
    ∧ (houWith resetHou (.state .freeRun .acquire 5)).wires.houIn = .state .freeRun .acquire 5 :: []
    ∧ ((houWith { resetHou with loop := .acquire } (.uncertainty 999999999999)).wires.houIn
        = .uncertainty 999999999999 :: []
      ∧ (houWith { resetHou with loop := .acquire } (.uncertainty 999999999999)).hou.loop
        = .acquire) := by decide

theorem witness_HoldoverBoundary :
    ((withWires (fun w => { w with houBnd := [aBoundary] }) trackState).wires.houBnd
        = aBoundary :: [] ∧ trackState.hou.loop = .track ∧ trackState.hou.ended = false
      ∧ trackState.hou.position + 1 < trackState.hou.cfg.interval
      ∧ ({ resetHou with position := 299 } : Hou).cfg.interval ≤ 299 + 1
      ∧ 298 + 1 < ({ resetHou with position := 298 } : Hou).cfg.interval)
    ∧ ({ resetHou with loop := .assisted } : Hou).loop = .assisted
    ∧ (({ resetHou with loop := .holdover, clock := 4294967295 } : Hou).loop = .holdover
      ∧ (4294967295 : Nat) = min (4294967295 + 1) 4294967295
      ∧ ((533759955587951882 : Nat) : Int) = roundDiv ((5000 * 4294967295 ^ 2 : Nat) : Int) 172800) := by decide

/-- Parameters of a CONFIGURE-HOLDOVER: the defaults, the interval as given. -/
def holdParams (interval : Word) : List Word :=
  [interval, 1, 0, 0, 0, 5000, 0, 1000, 0, 5000, 0, 10, 0, 0xC8E0, 0x0010, 0, 2]

theorem witness_HoldoverRequests :
    Held 5 8 (heldState 8 [] State.reset) ∧ State.reset.hou.ended = false
    ∧ Held 5 7 (heldState 7 (holdParams 300) State.reset)
    ∧ holdConfigOf (params (holdParams 300)) = some (defaultHoldConfig, false)
    ∧ (holdConfigOf (params (holdParams 15))).map (·.1.interval) = some 16
    ∧ ¬Params.n1 (params [300, 4]) 1 ≤ 3
    ∧ (4 ≤ ({ resetHou with fill := 4 } : Hou).fill ∧ 16 ≠ resetHou.cfg.interval) := by
  unfold Held
  decide +kernel

/-- R101: the position is 0 to interval less 1, so the boundary that completes an interval of 300
leaves 0, which word 61 of the loop status record shows. -/
theorem test_position_returns_to_zero :
    (countPosition { resetHou with loop := .track, position := 298 }).position = 299
    ∧ (countPosition { resetHou with loop := .track, position := 299 }).position = 0
    ∧ (countPosition { resetHou with loop := .track, position := 299 }).ended = true := by decide

/-! ### Witnesses: ports and delay measurement -/

theorem witness_BoundaryWorkSetsThePorts :
    (withWires (fun w => { w with ptuBnd := [aBoundary], ptuValues := [⟨1100001, 2⟩] })
        squelchState).wires.ptuBnd = aBoundary :: []
    ∧ (withWires (fun w => { w with ptuBnd := [aBoundary], ptuValues := [⟨1100001, 2⟩] })
        squelchState).wires.ptuValues = ⟨1100001, 2⟩ :: []
    ∧ squelchState.ptu.ports[4].active.mode ≠ .off
    ∧ squelchState.ptu.ports[4].active.limit < 1100001
    ∧ squelchState.ptu.ports[0].active.mode = .off
    ∧ (({ busyState with ptu := { resetPtu with ports := resetPtu.ports.set 7 { resetPort with
          staged := some ⟨defaultSettings, .request 0, true⟩ } } } : State).ptu.ports[7].staged
        = some ⟨defaultSettings, .request 0, true⟩ ∧ busyState.xu.slots[0].state = .taken
      ∧ busyState.xu.slots[1].state ≠ .taken)
    ∧ ∃ fix : Plan → Plan, ∀ x, fix x = if x.second = aBoundary.second
        ∧ x.settings.mode = .timecode
      then { x with message := some (siteMessage aBoundary ⟨1100001, 2⟩ none) } else x :=
  ⟨by decide, by decide, by decide, by decide, by decide, by decide, _, fun _ => rfl⟩

/-- A plan of the current second with these settings. -/
def planOf (p : PortSettings) : Plan := ⟨p, 0, some ⟨0, List.replicate 14 0⟩⟩

/-- Port 7 running with this plan armed and this period in progress. -/
def portState (armed : List Plan) (pr : Option Progress) (frac : Nat) : State :=
  { State.reset with
    tsu := { resetTsu with frac := frac }
    ptu := { resetPtu with
      ports := resetPtu.ports.set 7 { resetPort with
        active := { defaultSettings with mode := .pulse }
        state := .running
        armed := armed
        progress := pr
        measuring := some 1
        pin := .low }
      meas := resetPtu.meas.set 1
        (some ⟨7, 0, true, 5, 0, none, Vector.replicate 8 .notTaken, []⟩) } }

theorem witness_BoundaryWorkSetsThePorts_measured :
    ClaimLaw (portState [] none 0) ∧ (portState [] none 0).ptu.ports[7].state = .running := by
  unfold ClaimLaw
  decide +kernel

/-- Settings with a compensation of 1 ns, so that a period begins in the second before its own. -/
def ahead (m : PortMode) : PortSettings := { defaultSettings with mode := m, compensation := 1000 }

/-- The state at fraction `frac` of second 2, begun by a positive step that ended at `skipTo`. -/
def signalState (armed : List Plan) (pr : Option Progress) (frac skipTo : Nat) : State :=
  { portState armed pr frac with
    tsu := { resetTsu with label := 2, second := 2, prevLabel := 1, frac := frac, skipTo := skipTo } }

theorem witness_PortSignalFollowsThePlan_period :
    LiesAt ⟨ahead .pulse, 3, none⟩ 0 2 999999999000
    ∧ Reached (signalState [] none 999999999000 0).tsu 2 999999999000
    ∧ (signalState [⟨ahead .pulse, 3, none⟩] none 0 0).ptu.ports[7].armed
        = ⟨ahead .pulse, 3, none⟩ :: []
    ∧ (signalState [] none 0 0).ptu.ports[7].measuring = some 1
    ∧ Reached (signalState [] none 5 5).tsu 1 999999999000
    ∧ ¬Reached (signalState [] none 5 5).tsu 2 4 := by
  unfold LiesAt Reached
  decide

theorem witness_PortSignalFollowsThePlan_edge :
    EdgeOffset (ahead .pulse) 1 100000000 ∧ LiesAt ⟨ahead .pulse, 2, none⟩ 100000000 2 99999000
    ∧ Reached (signalState [] none 99999000 0).tsu 2 99999000
    ∧ EdgeOffset { ahead .frequency with freq := 3 } 5 833333333250
    ∧ (∀ y, ¬EdgeOffset { ahead .frequency with freq := 3 } 6 y)
    ∧ (∀ y, ¬EdgeOffset (ahead .pulse) 2 y) := by
  unfold EdgeOffset LiesAt Reached
  exact ⟨by decide, by decide, by decide, by decide, fun _ h => absurd (h.1 rfl).1 (by decide),
    fun _ h => absurd (h.2 (by decide)).2.1 (by decide)⟩

theorem witness_PortSignalFollowsThePlan_message :
    (ahead .timecode).baud = 9600
    ∧ LiesAt ⟨ahead .timecode, 2, some ⟨2, List.replicate 14 0⟩⟩ (messagePoint 9600 0) 2 19999999000
    ∧ LiesAt ⟨ahead .timecode, 2, some ⟨2, List.replicate 14 0⟩⟩ (messagePoint 9600 1) 2 20104165625
    ∧ Reached (signalState [] none 19999999000 0).tsu 2 19999999000
    ∧ (LineBit [0xB6] 0 false ∧ LineBit [0xB6] 2 true ∧ LineBit [0xB6] 9 true)
    ∧ LiesAt ⟨ahead .timecode, 2, some ⟨2, List.replicate 14 0⟩⟩ (messagePoint 9600 140)
        2 34583332250
    ∧ (19999999000 < (signalState [] none 30000000000 30000000000).tsu.skipTo) := by
  unfold LiesAt Reached LineBit messagePoint
  decide +kernel

/-- A second complete, a step of 60 ms pending, and in front of port 7 a pulse of 100 µs. -/
def resumeState (armed : List Plan) (pr : Option Progress) : State :=
  { portState armed pr 999999999999 with
    tsu := { resetTsu with
      frac := 999999999999
      due := some 7
      step := some (.host 60000000000 1) } }

theorem witness_PortSignalFollowsThePlan_resumption :
    ((resumeState [] none).tsu.due = some 7
      ∧ (PendingStep.host 60000000000 1).value = ((60000000000 : Nat) : Int))
    ∧ EarlierEdges ⟨{ defaultSettings with mode := .pulse }, 1, none⟩ (1060000000007) 2
    ∧ EarlierEdges ⟨{ defaultSettings with mode := .pulse, width := 100000000 }, 1, none⟩
        (1060000000007) 1
    ∧ LiesAt ⟨{ defaultSettings with mode := .pulse }, 1, none⟩ 0 (0 + 1) 0
    ∧ ClaimLaw (resumeState [] none) := by
  refine ⟨by decide, ?_, ?_, ?_, ?_⟩
  · constructor
    · rintro k x ⟨-, h⟩
      obtain ⟨-, hk, rfl⟩ := h (by decide)
      interval_cases k <;> decide
    · intro _
      exact ⟨100000000, by decide, fun _ => by decide⟩
  · constructor
    · rintro k x ⟨-, h⟩
      obtain ⟨-, hk, rfl⟩ := h (by decide)
      interval_cases k <;> decide
    · intro _
      exact ⟨0, by decide, fun _ => by decide⟩
  · unfold LiesAt
    decide
  · unfold ClaimLaw
    decide +kernel

theorem witness_SiteMessageBytes :
    (⟨5, 3⟩ : HouValues).quality ≤ 3 ∧ some (1 : Ref) = some (ppsRef 1)
    ∧ some (3 : Ref) = some (divRef 1) ∧ some (5 : Ref) = some (lineRef 1)
    ∧ some (7 : Ref) = some (pktRef 1) := by decide

theorem witness_UncertaintyCodeBoundsU :
    (1024000 : Nat) ≤ 2 ^ 10 * 1000 ∧ (∀ n, n ≤ 31 → ¬(2147483648001 : Nat) ≤ 2 ^ n * 1000)
    ∧ (999999999999 : Nat) ≤ 999999999999 := by
  refine ⟨by decide, ?_, by decide⟩
  intro n h
  interval_cases n <;> decide

/-- A CONFIGURE-PORT of port 7 to PULSE with a width of 1 ns. -/
def portParams : List Word :=
  [7, 1, 0, 0, 0, 1, 0, 0, 0, 0, 0, 1, 1000, 0, 0, 0]

theorem witness_PortRequestsAreChecked :
    ((portSettingsOf (params portParams)).map (·.1.width) = some 1
      ∧ Params.n1 (params portParams) 1 ≠ 0)
    ∧ portSettingsOf (params [7, 1, 2]) = none
    ∧ portSettingsOf (params [7]) = some (defaultSettings, false)
    ∧ ((portSettingsOf (params [7, 2, 1, 0, 0, 0, 0, 1, 0, 0, 0, 2, 1000, 0, 0, 2])).map
        (·.1.freq) = some 1)
    ∧ ((portSettingsOf (params [7, 3, 1, 0, 0, 1, 0, 0, 0, 9600, 0, 0, 1000, 0, 0, 1])).map
        (·.1.baud) = some 9600)
    ∧ (Held 5 12 (heldState 12 [12] State.reset) ∧ Held 5 13 (heldState 13 [0xFFFF] State.reset)
      ∧ 12 ≤ (Params.w (params [12]) 0).toNat)
    ∧ (Held 5 12 (heldState 12 portParams State.reset)
      ∧ Params.w (params portParams) 0 = BitVec.ofNat 16 7
      ∧ State.reset.ptu.ports[7].measuring = none ∧ State.reset.ptu.ports[7].staged = none
      ∧ (portState [] none 0).ptu.ports[7].measuring ≠ none)
    ∧ (({ busyState with ptu := { resetPtu with ports := resetPtu.ports.set 7 { resetPort with
          staged := some ⟨defaultSettings, .request 0, false⟩ } } } : State).ptu.ports[7].staged
        = some ⟨defaultSettings, .request 0, false⟩
      ∧ busyState.xu.slots[0].state = .taken ∧ State.reset.xu.slots[0].state ≠ .taken)
    ∧ (Held 5 13 (heldState 13 [7, 3, 0, 0, 1] (portState [] none 0))
      ∧ Params.n1 (params [7, 3, 0, 0, 1]) 1 ≤ 3
      ∧ (portState [] none 0).ptu.ports[7].state = .running
      ∧ (portState [] none 0).ptu.meas[0] = none ∧ State.reset.ptu.ports[7].state ≠ .running)
    ∧ Params.n1 (params [7, 2]) 1 = 1 + 1
    ∧ ¬Params.n1 (params [7, 4]) 1 ≤ 3 := by
  unfold Held
  decide +kernel

/-- The measurement of port 7 on AUX-B at sample k. -/
def measAt (k : Nat) (w : Option ReturnWindow) (notices : List MeasNotice) : DelayMeas :=
  ⟨7, 0, true, 0, k, w, Vector.replicate 8 (.value 4000), notices⟩

/-- A state with that measurement in flight, its request in slot 0. -/
def measState (m : DelayMeas) : State :=
  { busyState with ptu := { (portState [] none 0).ptu with
      meas := resetPtu.meas.set 1 (some m) } }

theorem witness_ReturnWindowsDecideSamples :
    ((measState (measAt 7 none [.period (some (⟨0, 0⟩, 0))])).ptu.meas[1]
        = some (measAt 7 none [.period (some (⟨0, 0⟩, 0))])
      ∧ (measAt 7 none [.period (some (⟨0, 0⟩, 0))]).window = none)
    ∧ ((measAt 6 none [.period none]).notices = .period none :: []
      ∧ (measAt 6 none [.period none]).k < 7)
    ∧ ((measAt 7 (some ⟨⟨0, 0⟩, 0, 0⟩) []).window = some ⟨⟨0, 0⟩, 0, 0⟩
      ∧ (measAt 7 (some ⟨⟨0, 0⟩, 0, 0⟩) []).k = 6 + 1
      ∧ (measAt 7 (some ⟨⟨0, 0⟩, 0, 0⟩) []).k < 8
      ∧ State.reset.tsu.hold = none)
    ∧ (measAt 7 (some ⟨⟨0, 0⟩, 0, -1⟩) []).window = some ⟨⟨0, 0⟩, 0, -1⟩
    ∧ (measAt 7 (some ⟨⟨0, 0⟩, 0, 1⟩) []).window = some ⟨⟨0, 0⟩, 0, 1⟩ := by decide

/-- What has run since an edge: in its own second, and over a boundary with a step of −7 ps. -/
theorem witness_ReturnWindowsDecideSamples_run :
    RunSince { resetTsu with frac := 100000000 } 0 0 100000000
    ∧ (RunSince { resetTsu with second := 1, label := 1, frac := 5, secondStep := -7 } 0
        999999999875 137
      ∧ 0 + 1 = ({ resetTsu with second := 1, label := 1 } : Tsu).second
      ∧ (0 : Label) + 1 = ({ resetTsu with second := 1, label := 1 } : Tsu).label) := by
  refine ⟨?_, ?_, by decide, by decide⟩ <;> intro now ran h1 _ h3 _
  · exact ⟨fun _ => by simp [h1 rfl], fun h => absurd h (by decide)⟩
  · exact ⟨fun h => absurd h (by decide), fun _ => by simp [h1 rfl, h3 rfl]⟩

theorem witness_DelayMeasurementEnds :
    ((measState (measAt 8 (some ⟨⟨0, 0⟩, 0, 0⟩) [])).ptu.meas[1]
        = some (measAt 8 (some ⟨⟨0, 0⟩, 0, 0⟩) [])
      ∧ busyState.xu.slots[0].state = .taken
      ∧ (measState (measAt 8 (some ⟨⟨0, 0⟩, 0, 0⟩) [])).ptu.ports[7].measuring = some 1
      ∧ (measAt 8 (some ⟨⟨0, 0⟩, 0, 0⟩) []).window = some ⟨⟨0, 0⟩, 0, 0⟩
      ∧ ((((measAt 8 none []).samples.set 7 .missing).toList.filter (· == .missing)).length < 3))
    ∧ ((measAt 7 none [.period none]).window = none ∧ (measAt 7 none [.period none]).k = 7
      ∧ (measAt 7 none [.period none]).notices = .period none :: [])
    ∧ State.reset.tsu.hold = none
    ∧ (measAt 2 none [.leftRunning]).notices = .leftRunning :: [] := by decide

/-! ### Witnesses: alarms -/

/-- Alarm 9 in this state with this count and a change of condition waiting. -/
def alarmState (st : AlarmState) (cond : Bool) (count : Nat) (change : Bool) : State :=
  { State.reset with
    alu := { resetAlu with entries := resetAlu.entries.set 9 { resetAlarm 9 with
        raiseDelay := 2
        condition := cond
        state := st
        count := count } }
    wires := { noWires with conds := [⟨9, change⟩] } }

theorem witness_AlarmsPersist :
    ((alarmState .clear false 0 true).wires.conds = ⟨9, true⟩ :: []
      ∧ (alarmState .clear false 0 true).alu.entries[9].condition = false
      ∧ (alarmState .raising true 1 false).alu.entries[9].count
        < (alarmState .raising true 1 false).alu.entries[9].raiseDelay
      ∧ (alarmState .clearing false 9 true).alu.entries[9].count
        < (alarmState .clearing false 9 true).alu.entries[9].clearDelay
      ∧ (alarmState .raised true 0 false).alu.entries[9].state = .raised)
    ∧ ((alarmState .raising true 2 false).alu.entries[9].state = .raising
      ∧ (alarmState .raising true 2 false).alu.entries[9].raiseDelay ≤ 2
      ∧ (alarmState .raising true 2 false).wires.aluBnd = [])
    ∧ ((alarmState .clearing false 10 false).alu.entries[9].state = .clearing
      ∧ (alarmState .clearing false 10 false).alu.entries[9].clearDelay ≤ 10)
    ∧ ((withWires (fun w => { w with aluBnd := [aBoundary] }) litState).wires.aluBnd
        = aBoundary :: []
      ∧ ∀ x : AlarmCode, litState.alu.entries[x].state ≠ .raising
        ∧ litState.alu.entries[x].state ≠ .clearing) := by
  decide +kernel

theorem witness_AlarmsAreAcknowledgedAndConfigured :
    Held 5 14 (heldState 14 [9, 3, 1, 255, 255] (alarmState .raising true 1 false))
    ∧ Params.w (params [9, 3, 1, 255, 255]) 0 = BitVec.ofNat 16 9
    ∧ Params.n1 (params [9, 3, 1, 255, 255]) 1 ≤ 3 ∧ Params.n1 (params [9, 3, 1, 255, 255]) 2 ≤ 1
    ∧ Params.n1 (params [9, 3, 1, 1, 255]) 3
        ≤ (alarmState .raising true 1 false).alu.entries[9].count
    ∧ Params.n1 (params [9, 3, 1, 1, 9]) 4
        ≤ (alarmState .clearing false 9 false).alu.entries[9].count
    ∧ ¬Params.n1 (params [9, 4]) 1 ≤ 3
    ∧ (Held 5 14 (heldState 14 [19] State.reset) ∧ 19 ≤ (Params.w (params [19]) 0).toNat)
    ∧ (Params.n1 (params [9, 3, 0, 1, 255]) 2 = 0 ∧ Params.n1 (params [9, 3, 1, 1, 255]) 2 = 1) := by
  unfold Held
  decide +kernel

/-! ### Witnesses: the exchange unit -/

theorem witness_RequestsAreQueuedAndTaken :
    (State.reset.xu.slots[15].state = .free ∧ busyState.xu.slots[0].state ≠ .free
      ∧ busyState.xu.slots[0].state ≠ .done)
    ∧ ({ freeSlot with state := .done } : RequestSlot).state = .done
    ∧ (postedState.xu.unit = none ∧ postedState.xu.queue = 3 :: []
      ∧ 1 ≤ postedState.xu.slots[3].kind.toNat ∧ postedState.xu.slots[3].kind.toNat ≤ 14)
    ∧ (14 < (15 : Word).toNat ∧ (0 : Word).toNat = 0) := by decide

theorem witness_EpochReportIsWritten :
    (withWires (fun w => { w with
        xuBnd := [aBoundary], xuValues := [⟨5, 0⟩], xuPorts := [Vector.replicate 12 .off] })
      State.reset).wires.xuBnd = aBoundary :: []
    ∧ (withWires (fun w => { w with
        xuBnd := [aBoundary], xuValues := [⟨5, 0⟩], xuPorts := [Vector.replicate 12 .off] })
      State.reset).wires.xuPorts = Vector.replicate 12 .off :: []
    ∧ (1 : Fin 2).val = aBoundary.label.toNat % 2 := by decide

theorem witness_AttentionIsAcknowledgedAndRouted :
    (0 : Word) = State.reset.xu.attn[5].count ∧ 2 < (3 : Word).toNat
    ∧ (2 : Word) = (match Route.intb with | .none_ => 0 | .inta => 1 | .intb => 2) := by decide

theorem witness_TimeRequestsBecomePending :
    (Held 5 9 (heldState 9 [0xFFFF, 0xFFFF, 0xFFFF] State.reset)
      ∧ Params.w (params [0xFFFF, 0xFFFF, 0xFFFF]) 3 = 0
      ∧ Params.w (params [0, 0, 0, 1]) 3 ≠ 0 ∧ State.reset.tsu.setTime = none)
    ∧ ((parkedState fun t => { t with setTime := some ⟨9, 0⟩ }).tsu.setTime = some ⟨9, 0⟩
      ∧ (parkedState id).xu.slots[0].state = .taken)
    ∧ loopStepState.tsu.step = some (.loop 2000000)
    ∧ (Held 5 10 (heldState 10 [0x2000, 0x6A52, 0x74] State.reset)
      ∧ (Params.i3 (params [0x8800, 0x6A52, 0x74]) 0).natAbs = 500000000000
      ∧ 500000000000 < (Params.i3 (params [0x8801, 0x6A52, 0x74]) 0).natAbs
      ∧ State.reset.lpu.state = .freeRun ∧ trackState.lpu.state ≠ .freeRun
      ∧ trackState.lpu.state ≠ .holdover)
    ∧ (Held 5 11 (heldState 11 [0, 0, 0, 0, 1] State.reset)
      ∧ Params.w (params [0, 0, 0, 0, 1]) 4 = 1
      ∧ State.reset.tsu.label.toNat ≤ (Params.b3 (params [0, 0, 0, 0, 1]) 0).toNat
      ∧ Params.w (params [0, 0, 0, 0, 3]) 4 = 3 ∧ Params.w (params [0, 0, 0, 0]) 4 = 0
      ∧ 3 < (Params.w (params [0, 0, 0, 0, 4]) 4).toNat
      ∧ (Params.b3 (params [4]) 0).toNat < (5 : Label).toNat)
    ∧ ((heldState 9 [] (withTsu fun t => { t with setTime := some ⟨9, 2⟩ })).tsu.setTime
        = some ⟨9, 2⟩
      ∧ (heldState 10 [] hostStepState).tsu.step = some (.host (-5) 2)
      ∧ (heldState 11 [] (withTsu fun t => { t with leap := some ⟨9, .insert, 2⟩ })).tsu.leap
        = some ⟨9, .insert, 2⟩
      ∧ (heldState 11 [] State.reset).xu.slots[2].state ≠ .taken) := by
  unfold Held
  decide +kernel

end Sys2Proof.Tests
end

section
/-! PROOFS. The uncertainty code and the site time message (R135 to R137, R191). -/

namespace Sys2Proof.Machine

open Sys2Proof.Safety

/-! ### The uncertainty code (R136) -/

/-- What the search for the code answers: it ends at the first bound that holds U, or runs past all of
0 to 30. -/
theorem uncertaintyCode_spec (u : Nat) :
    (uncertaintyCode u ≤ 31 ∧ ∀ m, m < uncertaintyCode u → ¬u ≤ 2 ^ m * 1000)
    ∧ (uncertaintyCode u < 31 → u ≤ 2 ^ uncertaintyCode u * 1000) := by
  unfold uncertaintyCode
  cases hfind : (List.range 31).find? fun n => decide (u ≤ 2 ^ n * 1000) with
  | none =>
    have hnone : ∀ m, m < 31 → ¬u ≤ 2 ^ m * 1000 := by simpa using hfind
    exact ⟨⟨le_rfl, hnone⟩, fun h => absurd h (lt_irrefl 31)⟩
  | some n =>
    obtain ⟨hholds, hmem, hfirst⟩ := List.find?_range_eq_some.1 hfind
    exact ⟨⟨(List.mem_range.1 hmem).le, fun m hm => by simpa using hfirst m hm⟩,
      fun _ => of_decide_eq_true hholds⟩

theorem uncertaintyCode_le_31 (u : Nat) : uncertaintyCode u ≤ 31 :=
  (uncertaintyCode_spec u).1.1

/-- No exponent below the code has a bound that holds U. -/
theorem uncertaintyCode_le_of_holds {u n : Nat} (h : u ≤ 2 ^ n * 1000) : uncertaintyCode u ≤ n :=
  not_lt.1 fun hlt => (uncertaintyCode_spec u).1.2 n hlt h

theorem le_uncertaintyCode_bound {u n : Nat} (hn : n ≤ 31) (h : u ≤ 2 ^ n * 1000) :
    u ≤ 2 ^ uncertaintyCode u * 1000 := by
  rcases (uncertaintyCode_le_31 u).lt_or_eq with hlt | heq
  · exact (uncertaintyCode_spec u).2 hlt
  · have hn31 : n = 31 := le_antisymm hn (heq ▸ uncertaintyCode_le_of_holds h)
    rwa [heq, ← hn31]

theorem uncertaintyCode_of_none_holds {u : Nat} (h : ∀ n, n ≤ 31 → ¬u ≤ 2 ^ n * 1000) :
    uncertaintyCode u = 31 := by
  by_contra hne
  have hlt : uncertaintyCode u < 31 := lt_of_le_of_ne (uncertaintyCode_le_31 u) hne
  exact h _ hlt.le ((uncertaintyCode_spec u).2 hlt)

/-- Settles O51: the search meets the exponents in ascending order, and 2³⁰ × 1,000 is above the range
of U. -/
theorem uncertaintyCodeBoundsU : Obligations.UncertaintyCodeBoundsU := fun u =>
  ⟨uncertaintyCode_le_31 u,
    fun _ hn h => ⟨le_uncertaintyCode_bound hn h, uncertaintyCode_le_of_holds h⟩,
    uncertaintyCode_of_none_holds,
    fun hu => uncertaintyCode_le_of_holds (by omega)⟩

/-! ### The CRC (R137) -/

/-- The CRC's register after a series of bits, in the order they are taken. -/
def crcRegister (bits : List Bool) : BitVec 16 := bits.foldl crcBit 0xFFFF#16

/-- One bit: the shift, and the polynomial where the dropped top bit differs from the bit. -/
theorem crcBit_eq (reg : BitVec 16) (x : Bool) :
    crcBit reg x = if reg.getMsbD 0 = x then reg <<< 1 else reg <<< 1 ^^^ 0x1021 := by
  unfold crcBit BitVec.msb
  by_cases h : reg.getMsbD 0 = x <;> simp [h]

theorem crcRegister_append_bit (bits : List Bool) (x : Bool) :
    crcRegister (bits ++ [x]) = if (crcRegister bits).getMsbD 0 = x then crcRegister bits <<< 1
      else crcRegister bits <<< 1 ^^^ 0x1021 := by
  rw [← crcBit_eq]
  exact List.foldl_concat _ _ x bits

/-- A byte is taken bit by bit, the most significant first. -/
theorem crcByte_eq_foldl_bitsOf (reg : BitVec 16) (x : Byte) :
    crcByte reg x = (bitsOf x).foldl crcBit reg :=
  List.foldl_map.symm

theorem crc16_eq_crcRegister (bytes : List Byte) :
    crc16 bytes = crcRegister (bytes.flatMap bitsOf) := by
  have hbyte : crcByte = fun reg x => (bitsOf x).foldl crcBit reg :=
    funext₂ crcByte_eq_foldl_bitsOf
  rw [crc16, crcRegister, List.foldl_flatMap, hbyte]

/-- The check value of R137, over "123456789". -/
theorem crc16_check_value :
    crc16 [0x31, 0x32, 0x33, 0x34, 0x35, 0x36, 0x37, 0x38, 0x39] = 0x29B1 := by
  decide +kernel

/-! ### The bytes of the message (R135, R191) -/

/-- The first twelve bytes of the message, those its CRC covers. -/
def messageHead (b : Boundary) (v : HouValues) (r : Option Ref) : List Byte :=
  [0xB6, 0x01,
    b.label.extractLsb' 0 8, b.label.extractLsb' 8 8, b.label.extractLsb' 16 8,
    b.label.extractLsb' 24 8, b.label.extractLsb' 32 8, b.label.extractLsb' 40 8,
    messageFlags b, BitVec.ofNat 8 v.quality, BitVec.ofNat 8 (uncertaintyCode v.u), kindCode r]

theorem messageHead_length (b : Boundary) (v : HouValues) (r : Option Ref) :
    (messageHead b v r).length = 12 := rfl

theorem siteMessage_bytes (b : Boundary) (v : HouValues) (r : Option Ref) :
    (siteMessage b v r).bytes = messageHead b v r
      ++ [(crc16 (messageHead b v r)).extractLsb' 8 8, (crc16 (messageHead b v r)).extractLsb' 0 8] :=
  rfl

theorem siteMessage_take_head (b : Boundary) (v : HouValues) (r : Option Ref) :
    (siteMessage b v r).bytes.take 12 = messageHead b v r :=
  List.take_left' (messageHead_length b v r)

/-- The `len` bits of a word from place `start` up, as a shift and a change of width. -/
theorem extractLsb'_eq_setWidth_shiftRight {w : Nat} (x : BitVec w) (start len : Nat) :
    x.extractLsb' start len = (x >>> start).setWidth len := by
  ext i
  simp

/-- The last two bytes are the CRC of the twelve before them, high byte first. -/
theorem siteMessage_drop_head (b : Boundary) (v : HouValues) (r : Option Ref) :
    (siteMessage b v r).bytes.drop 12 =
      [(crc16 ((siteMessage b v r).bytes.take 12) >>> 8).setWidth 8,
        (crc16 ((siteMessage b v r).bytes.take 12)).setWidth 8] := by
  rw [siteMessage_take_head, siteMessage_bytes, List.drop_left' (messageHead_length b v r),
    extractLsb'_eq_setWidth_shiftRight, extractLsb'_eq_setWidth_shiftRight, BitVec.ushiftRight_zero]

/-- Bytes 2 to 7 are the label, the low byte first. -/
theorem siteMessage_label_byte (b : Boundary) (v : HouValues) (r : Option Ref) (i : Fin 6) :
    (siteMessage b v r).bytes.getD (2 + i.val) 0 = (b.label >>> (8 * i.val)).setWidth 8 := by
  have hbyte : (siteMessage b v r).bytes.getD (2 + i.val) 0 = b.label.extractLsb' (8 * i.val) 8 := by
    fin_cases i <;> rfl
  rw [hbyte, extractLsb'_eq_setWidth_shiftRight]

/-- Four Booleans with the weights 1, 2, 4 and 8 are the low bits of a byte, which has no others. -/
theorem bits_of_weighted_sum (f0 f1 f2 f3 : Bool) :
    let f := BitVec.ofNat 8 (bitOf f0 + 2 * bitOf f1 + 4 * bitOf f2 + 8 * bitOf f3)
    f.getLsbD 0 = f0 ∧ f.getLsbD 1 = f1 ∧ f.getLsbD 2 = f2 ∧ f.getLsbD 3 = f3 ∧ f.toNat < 16 := by
  revert f0 f1 f2 f3
  decide

/-- The flags byte: TIME-SET, leap pending, its kind, and the repeated label (R191). -/
theorem messageFlags_bits (b : Boundary) :
    (messageFlags b).getLsbD 0 = b.timeSet ∧ (messageFlags b).getLsbD 1 = b.leap.isSome
    ∧ ((messageFlags b).getLsbD 2 = true ↔ b.leap = some .delete)
    ∧ (messageFlags b).getLsbD 3 = b.repeated ∧ (messageFlags b).toNat < 16 := by
  obtain ⟨htime, hleap, hkind, hrepeated, hlt⟩ :=
    bits_of_weighted_sum b.timeSet b.leap.isSome (b.leap == some .delete) b.repeated
  exact ⟨htime, hleap, (Bool.eq_iff_iff.1 hkind).trans beq_iff_eq, hrepeated, hlt⟩

/-! The kind of a reference, by the range its index lies in. -/

theorem refKind_ppsRef (c : PpsChannelId) : refKind (ppsRef c) = .pps := by
  simp [refKind, ppsRef, c.isLt]

theorem refKind_divRef {d : DividerId} (h : d.val < 2) : refKind (divRef d) = .frq := by
  have hfrq : d.val + 2 < 4 := by omega
  simp [refKind, divRef, hfrq]

theorem refKind_lineRef (l : LineId) : refKind (lineRef l) = .line := by
  have hnotFrq : ¬l.val + 4 < 4 := by omega
  have hline : l.val + 4 < 6 := by omega
  simp [refKind, lineRef, hnotFrq, hline]

theorem refKind_pktRef (k : PacketId) : refKind (pktRef k) = .pkt := by
  have hnotFrq : ¬k.val + 6 < 4 := by omega
  simp [refKind, pktRef, hnotFrq]

theorem kindCode_ppsRef (c : PpsChannelId) : kindCode (some (ppsRef c)) = 1 := by
  rw [kindCode, refKind_ppsRef]

theorem kindCode_divRef {d : DividerId} (h : d.val < 2) : kindCode (some (divRef d)) = 2 := by
  rw [kindCode, refKind_divRef h]

theorem kindCode_lineRef (l : LineId) : kindCode (some (lineRef l)) = 3 := by
  rw [kindCode, refKind_lineRef]

theorem kindCode_pktRef (k : PacketId) : kindCode (some (pktRef k)) = 4 := by
  rw [kindCode, refKind_pktRef]

/-- The bits on the line are the framed bytes (R127), whatever the bytes are. -/
theorem lineBit_messageBit (bytes : List Byte) (j : Nat) : LineBit bytes j (messageBit bytes j) := by
  unfold LineBit messageBit
  refine ⟨fun hstart => if_pos hstart, fun hstop => ?_, fun hpos hlt => ?_⟩
  · rw [if_neg (by omega), if_pos hstop]
  · rw [if_neg (by omega), if_neg (by omega)]

/-- Settles O50: the bytes are those of `messageHead` and its CRC, and the CRC takes its bits one by one
through `crcRegister`. -/
theorem siteMessageBytes : Obligations.SiteMessageBytes := by
  refine ⟨fun b v r _ => ?_, fun b v r => ?_, ⟨crcRegister, rfl, ?_, ?_⟩, crc16_check_value⟩
  · refine ⟨rfl, rfl, rfl, siteMessage_label_byte b v r, ⟨messageFlags b, rfl, messageFlags_bits b⟩,
      rfl, rfl, ?_, ?_, ?_, ?_, ?_⟩
    · rintro rfl
      rfl
    · rintro c rfl
      exact congrArg some (kindCode_ppsRef c)
    · rintro d rfl hd
      exact congrArg some (kindCode_divRef hd)
    · rintro l rfl
      exact congrArg some (kindCode_lineRef l)
    · rintro k rfl
      exact congrArg some (kindCode_pktRef k)
  · exact ⟨siteMessage_drop_head b v r, fun j _ => lineBit_messageBit _ j⟩
  · exact crcRegister_append_bit
  · exact crc16_eq_crcRegister

end Sys2Proof.Machine
end

section
/-! PROOFS. Acknowledgement and routing of the attention classes (R173, R174, R177). -/

namespace Sys2Proof.Machine

open Sys2Proof.Safety

/-! ### Writes of the exchange unit, and the lines they settle (R174) -/

theorem keepsAllBut_setXu (s : State) (x : Xu) : KeepsAllBut [.xu] s (s.setXu x) := by
  simp [KeepsAllBut]

/-- Settling the lines touches the lines alone. -/
theorem settleLines_eq (x : Xu) :
    settleLines x = { x with inta := (settleLines x).inta, intb := (settleLines x).intb } := rfl

/-- Once settled, each line stands as its sources say. -/
theorem lineSource_of_settleLines (s : State) (x : Xu) :
    ((settleLines x).inta = true ↔ LineSource .inta (s.setXu (settleLines x)))
    ∧ ((settleLines x).intb = true ↔ LineSource .intb (s.setXu (settleLines x))) :=
  ⟨lineWanted_iff x.attn .inta, lineWanted_iff x.attn .intb⟩

/-! ### Acknowledgements (R173) -/

/-- A class after an acknowledgement: pending stays only where the value is not the count. -/
def acked (v : Word) (a : Attention) : Attention :=
  { a with ack := v, pending := a.pending && decide (v ≠ a.count) }

theorem acked_eq_ite (v : Word) (a : Attention) :
    acked v a = { a with ack := v, pending := if v = a.count then false else a.pending } := by
  by_cases h : v = a.count <;> simp [acked, h]

/-- An acknowledgement acknowledges its class and settles the lines. -/
theorem ackXu_eq (c : AttnClass) (v : Word) (x : Xu) :
    ackXu c v x = settleLines { x with attn := x.attn.set c (acked v x.attn[c]) } := by
  rw [acked_eq_ite]
  rfl

theorem ackXu_attn_self (c : AttnClass) (v : Word) (x : Xu) :
    (ackXu c v x).attn[c] = acked v x.attn[c] := by
  simp [ackXu_eq]

theorem exec_attentionAck (c : AttnClass) (v : Word) (s : State) :
    exec (.attentionAck c v) s = .next (s.setXu (ackXu c v { s.xu with latch := none })) := rfl

theorem bump_attn_self (c : AttnClass) (s : State) :
    (bump c s).xu.attn[c] = { s.xu.attn[c] with pending := true, count := s.xu.attn[c].count + 1 } := by
  rw [bump_attn, if_pos rfl]

/-- An acknowledgement that carries the count from before a bump leaves the class pending. -/
theorem acked_bumped_pending (a : Attention) :
    (acked a.count { a with pending := true, count := a.count + 1 }).pending = true := by
  simp [acked]

/-! ### Routes (R174) -/

/-- The word that names a route. -/
def routeWord : Route → Word
  | .none_ => 0
  | .inta => 1
  | .intb => 2

theorem routeOf_routeWord (r : Route) : routeOf (routeWord r) = some r := by
  cases r <;> rfl

theorem routeOf_eq_none {v : Word} (h : 2 < v.toNat) : routeOf v = none := by
  have h0 : v ≠ 0 := by rintro rfl; contradiction
  have h1 : v ≠ 1 := by rintro rfl; contradiction
  have h2 : v ≠ 2 := by rintro rfl; contradiction
  rw [routeOf, if_neg h0, if_neg h1, if_neg h2]

theorem routeXu_routeWord (c : AttnClass) (r : Route) (x : Xu) :
    routeXu c (routeWord r) x =
      settleLines { x with attn := x.attn.set c { x.attn[c] with route := r } } := by
  rw [routeXu, routeOf_routeWord]
  rfl

theorem routeXu_discarded (c : AttnClass) {v : Word} (x : Xu) (h : 2 < v.toNat) :
    routeXu c v x = x := by
  rw [routeXu, routeOf_eq_none h]

/-- A route word touches the classes and the lines alone. -/
theorem routeXu_frame (c : AttnClass) (v : Word) (x : Xu) :
    routeXu c v x = { x with
      attn := (routeXu c v x).attn
      inta := (routeXu c v x).inta
      intb := (routeXu c v x).intb } := by
  unfold routeXu
  split <;> rfl

theorem exec_attentionRoute (c : AttnClass) (v : Word) (s : State) :
    exec (.attentionRoute c v) s = .next (s.setXu (routeXu c v { s.xu with latch := none })) := rfl

/-! ### The commands -/

/-- ATTENTION_ACK, and a bump that follows it. -/
theorem attentionAck_spec (c : AttnClass) (v : Word) (s : State) :
    ∃ t, exec (.attentionAck c v) s = .next t
      ∧ t.xu.attn = s.xu.attn.set c (acked v s.xu.attn[c])
      ∧ (t.xu.inta = true ↔ LineSource .inta t) ∧ (t.xu.intb = true ↔ LineSource .intb t)
      ∧ (v = s.xu.attn[c].count → (bump c t).xu.attn[c].pending = true
          ∧ (bump c t).xu.attn[c].count = s.xu.attn[c].count + 1)
      ∧ t.xu = { s.xu with attn := t.xu.attn, inta := t.xu.inta, intb := t.xu.intb, latch := none }
      ∧ KeepsAllBut [.xu] s t := by
  refine ⟨_, exec_attentionAck c v s, ?_⟩
  have hself := ackXu_attn_self c v { s.xu with latch := none }
  rw [ackXu_eq] at hself ⊢
  obtain ⟨hinta, hintb⟩ := lineSource_of_settleLines s _
  refine ⟨rfl, hinta, hintb, fun _ => ?_, settleLines_eq _, keepsAllBut_setXu s _⟩
  rw [bump_attn_self, State.setXu_xu, hself]
  exact ⟨rfl, rfl⟩

/-- ATTENTION_ACK that comes after a bump, with the count from before it. -/
theorem attentionAck_after_bump (c : AttnClass) (s : State) :
    ∃ t, exec (.attentionAck c s.xu.attn[c].count) (bump c s) = .next t
      ∧ t.xu.attn[c].pending = true ∧ t.xu.attn[c].count = s.xu.attn[c].count + 1 := by
  refine ⟨_, exec_attentionAck c _ _, ?_⟩
  rw [State.setXu_xu, ackXu_attn_self, bump_attn_self]
  exact ⟨acked_bumped_pending _, rfl⟩

/-- ATTENTION_ROUTE: the three words that route, every other word discarded, and the frame of both. -/
theorem attentionRoute_spec (c : AttnClass) (v : Word) (s : State) :
    ∃ t, exec (.attentionRoute c v) s = .next t
      ∧ (∀ r, v = routeWord r → t.xu.attn = s.xu.attn.set c { s.xu.attn[c] with route := r }
          ∧ (t.xu.inta = true ↔ LineSource .inta t) ∧ (t.xu.intb = true ↔ LineSource .intb t))
      ∧ (2 < v.toNat → t.xu = { s.xu with latch := none })
      ∧ t.xu = { s.xu with attn := t.xu.attn, inta := t.xu.inta, intb := t.xu.intb, latch := none }
      ∧ KeepsAllBut [.xu] s t := by
  refine ⟨_, exec_attentionRoute c v s, ?_, routeXu_discarded c _, routeXu_frame c v _,
    keepsAllBut_setXu s _⟩
  rintro r rfl
  rw [routeXu_routeWord]
  exact ⟨rfl, lineSource_of_settleLines s _⟩

/-- Settles O59: both commands write the exchange unit alone and settle its lines. An acknowledgement
that meets a bump leaves the class pending in either order. -/
theorem attentionIsAcknowledgedAndRouted : Obligations.AttentionIsAcknowledgedAndRouted := by
  intro s c v
  refine ⟨attentionAck_spec c v s, ?_, ?_⟩
  · rintro rfl
    exact attentionAck_after_bump c s
  · obtain ⟨t, hexec, hroute, hrest⟩ := attentionRoute_spec c v s
    exact ⟨t, hexec, fun r hv => hroute r (hv.trans (by cases r <;> rfl)), hrest⟩

end Sys2Proof.Machine
end

section
/-! PROOFS. Frames of the commands: the blocks each of them may touch, proved once and cited by every
statement that names a frame. -/

namespace Sys2Proof.Safety

open Sys2Proof.Machine

theorem KeepsAllBut.refl (bs : List Block) (s : State) : KeepsAllBut bs s s := by
  simp [KeepsAllBut]

/-- A frame may name more blocks than are touched. -/
theorem KeepsAllBut.mono {bs cs : List Block} {s t : State} (h : KeepsAllBut bs s t)
    (hsub : bs ⊆ cs) : KeepsAllBut cs s t := by
  obtain ⟨h1, h2, h3, h4, h5, h6, h7, h8, h9, h10, h11, h12⟩ := h
  exact ⟨h1.imp_left (hsub ·), h2.imp_left (hsub ·), h3.imp_left (hsub ·), h4.imp_left (hsub ·),
    h5.imp_left (hsub ·), h6.imp_left (hsub ·), h7.imp_left (hsub ·), h8.imp_left (hsub ·),
    h9.imp_left (hsub ·), h10.imp_left (hsub ·), h11.imp_left (hsub ·), h12⟩

theorem KeepsAllBut.trans {bs : List Block} {s t u : State} (h : KeepsAllBut bs s t)
    (k : KeepsAllBut bs t u) : KeepsAllBut bs s u := by
  obtain ⟨h1, h2, h3, h4, h5, h6, h7, h8, h9, h10, h11, h12⟩ := h
  obtain ⟨k1, k2, k3, k4, k5, k6, k7, k8, k9, k10, k11, k12⟩ := k
  have both : ∀ {α : Type} {P : Prop} {x y z : α}, P ∨ y = x → P ∨ z = y → P ∨ z = x := by
    rintro α P x y z (h | rfl) (k | rfl) <;> simp [*]
  exact ⟨both h1 k1, both h2 k2, both h3 k3, both h4 k4, both h5 k5, both h6 k6, both h7 k7,
    both h8 k8, both h9 k9, both h10 k10, both h11 k11, k12.trans h12⟩

theorem KeepsAllBut.ite {bs : List Block} {p : Prop} [Decidable p] {s t u : State}
    (ht : p → KeepsAllBut bs s t) (hu : ¬p → KeepsAllBut bs s u) :
    KeepsAllBut bs s (if p then t else u) := by
  split <;> simp_all

/-- A fold keeps what each of its steps keeps. -/
theorem KeepsAllBut.foldl {α : Type} {bs : List Block} {f : State → α → State}
    (hf : ∀ s a, KeepsAllBut bs s (f s a)) (l : List α) (s : State) :
    KeepsAllBut bs s (l.foldl f s) := by
  induction l generalizing s with
  | nil => exact .refl bs s
  | cons a l ih => exact (hf s a).trans (ih (f s a))

end Sys2Proof.Safety

namespace Sys2Proof.Machine

open Sys2Proof.Safety

/-! ### One block replaced -/

theorem setWires_frame (s : State) (w : Wires) : KeepsAllBut [.wires] s (s.setWires w) := by
  simp [KeepsAllBut]

theorem setPku_frame (s : State) (x : Pku) : KeepsAllBut [.pku] s (s.setPku x) := by
  simp [KeepsAllBut]

theorem setQsu_frame (s : State) (x : Qsu) : KeepsAllBut [.qsu] s (s.setQsu x) := by
  simp [KeepsAllBut]

theorem setLpu_frame (s : State) (x : Lpu) : KeepsAllBut [.lpu] s (s.setLpu x) := by
  simp [KeepsAllBut]

/-! ### The timescale unit -/

theorem takeOscCycle_frame (s : State) : KeepsAllBut [.tsu, .cap, .ptu] s (takeOscCycle s) := by
  unfold takeOscCycle
  split <;> simp [KeepsAllBut]

theorem takeHoldEnd_frame (s : State) : KeepsAllBut [.tsu] s (takeHoldEnd s) := by
  unfold takeHoldEnd
  split
  · split <;> simp [KeepsAllBut]
  · exact .refl _ s

theorem settleLabel_frame (s : State) : KeepsAllBut [.tsu, .wires] s (settleLabel s) := by
  simp [settleLabel, KeepsAllBut]

theorem dropOldest_frame (s : State) : KeepsAllBut [.tsu, .cap] s (dropOldest s) := by
  unfold dropOldest
  split
  · exact .refl _ s
  · split <;> simp [KeepsAllBut]

theorem pruneLog_frame (s : State) : KeepsAllBut [.tsu] s (pruneLog s) := by
  simp [KeepsAllBut]

theorem enterStep_frame (v : Int) (s : State) : KeepsAllBut [.tsu, .cap] s (enterStep v s) := by
  unfold enterStep
  split
  · exact .refl _ s
  · refine ((pruneLog_frame s).mono (by decide)).trans ((dropOldest_frame _).trans ?_)
    simp [KeepsAllBut]

theorem countWarmUp_frame (s : State) : KeepsAllBut [.tsu, .wires] s (countWarmUp s) := by
  unfold countWarmUp
  split
  · exact .refl _ s
  · dsimp only
    split <;> simp [KeepsAllBut]

theorem complete_xu_frame (n : Slot) (c : Completion) (l : Label) (ws : List Word) (s : State) :
    KeepsAllBut [.xu] s (complete n c l ws s) := by simp [KeepsAllBut]

theorem completeNow_frame (n : Slot) (c : Completion) (s : State) :
    KeepsAllBut [.xu] s (completeNow n c s) := complete_xu_frame ..

/-- The parked SET-TIME completed at a boundary (R6). -/
def completeSetTime (t : Tsu) (label : Label) (s : State) : State :=
  match t.setTime with
  | none => s
  | some p => complete p.slot .ok label (labelWords (labelByLeap t.label t.leap).label) s

/-- The parked leap completed at a boundary that executes or misses it (R6, R7). -/
def completeLeap (t : Tsu) (label : Label) (s : State) : State :=
  match t.leap, (decideLabel t).fate with
  | some l, .executed => complete l.slot .ok label [] s
  | some l, .missed => complete l.slot .missed label [] s
  | _, _ => s

/-- The parked HOST step completed at the boundary that applies it (R10). -/
def completeStep (t : Tsu) (label : Label) (s : State) : State :=
  match t.step with
  | some (.host _ slot) => complete slot .ok label [] s
  | _ => s

theorem completeAtBoundary_eq (t : Tsu) (label : Label) (s : State) :
    completeAtBoundary t label s
      = completeStep t label (completeLeap t label (completeSetTime t label s)) := rfl

theorem completeSetTime_frame (t : Tsu) (label : Label) (s : State) :
    KeepsAllBut [.xu] s (completeSetTime t label s) := by
  unfold completeSetTime
  split
  · exact .refl _ s
  · exact complete_xu_frame ..

theorem completeLeap_frame (t : Tsu) (label : Label) (s : State) :
    KeepsAllBut [.xu] s (completeLeap t label s) := by
  unfold completeLeap
  split
  · exact complete_xu_frame ..
  · exact complete_xu_frame ..
  · exact .refl _ s

theorem completeStep_frame (t : Tsu) (label : Label) (s : State) :
    KeepsAllBut [.xu] s (completeStep t label s) := by
  unfold completeStep
  split
  · exact complete_xu_frame ..
  · exact .refl _ s

theorem completeAtBoundary_frame (t : Tsu) (label : Label) (s : State) :
    KeepsAllBut [.xu] s (completeAtBoundary t label s) :=
  (completeSetTime_frame t label s).trans
    ((completeLeap_frame t label _).trans (completeStep_frame t label _))

theorem resumePort_frame (p : Port) (s : State) : KeepsAllBut [.ptu] s (resumePort p s) := by
  simp [KeepsAllBut]

theorem resumePorts_frame (s : State) : KeepsAllBut [.ptu] s (resumePorts s) :=
  .foldl (fun s p => resumePort_frame p s) _ s

/-- The new second begun: label and schedule settled, the fraction started, the step logged, the
warm-up count taken down (R5, steps before the delivery). -/
def secondBegun (x : Nat) (s : State) : State :=
  countWarmUp (enterStep (pendingValue s.tsu)
    ((settleLabel s).setTsu (startSecond x (settleLabel s).tsu)))

/-- The parked requests of the boundary completed. -/
def parkedCompleted (x : Nat) (s : State) : State :=
  completeAtBoundary s.tsu (secondBegun x s).tsu.label (secondBegun x s)

/-- The boundary delivered to the blocks. -/
def boundaryDelivered (x : Nat) (s : State) : State :=
  (parkedCompleted x s).setWires
    (deliver (boundaryOf s.tsu (parkedCompleted x s).tsu) (parkedCompleted x s).wires)

/-- The steps of SECOND_BOUNDARY in their order (R5). -/
theorem takeSecondBoundary_eq {x : Nat} {s : State} (h : s.tsu.due = some x) :
    takeSecondBoundary s =
      if 0 < pendingValue s.tsu then
        resumePorts (if pendingValue s.tsu = 0 then boundaryDelivered x s
          else pruneLog (boundaryDelivered x s))
      else if pendingValue s.tsu = 0 then boundaryDelivered x s
        else pruneLog (boundaryDelivered x s) := by
  simp only [takeSecondBoundary, h]
  rfl

theorem secondBegun_frame (x : Nat) (s : State) :
    KeepsAllBut [.tsu, .cap, .wires] s (secondBegun x s) := by
  refine .trans ?_ ((countWarmUp_frame _).mono (by decide))
  refine .trans ?_ ((enterStep_frame _ _).mono (by decide))
  refine ((settleLabel_frame s).mono (by decide)).trans ?_
  simp [KeepsAllBut]

theorem boundaryDelivered_frame (x : Nat) (s : State) :
    KeepsAllBut [.tsu, .cap, .xu, .wires] s (boundaryDelivered x s) := by
  refine .trans ?_ ((setWires_frame _ _).mono (by decide))
  exact ((secondBegun_frame x s).mono (by decide)).trans
    ((completeAtBoundary_frame _ _ _).mono (by decide))

theorem takeSecondBoundary_frame (s : State) :
    KeepsAllBut [.tsu, .cap, .ptu, .xu, .wires] s (takeSecondBoundary s) := by
  cases h : s.tsu.due with
  | none =>
    rw [takeSecondBoundary, h]
    exact .refl _ s
  | some x =>
    have hd := (boundaryDelivered_frame x s).mono
      (cs := [.tsu, .cap, .ptu, .xu, .wires]) (by decide)
    have hp : KeepsAllBut [.tsu, .cap, .ptu, .xu, .wires] s
        (if pendingValue s.tsu = 0 then boundaryDelivered x s
          else pruneLog (boundaryDelivered x s)) :=
      .ite (fun _ => hd) fun _ => hd.trans ((pruneLog_frame _).mono (by decide))
    rw [takeSecondBoundary_eq h]
    exact .ite (fun _ => hp.trans ((resumePorts_frame _).mono (by decide))) fun _ => hp

theorem takeLoopStep_frame (s : State) : KeepsAllBut [.tsu, .wires] s (takeLoopStep s) := by
  unfold takeLoopStep
  split
  · dsimp only
    split <;> simp [KeepsAllBut]
  · exact .refl _ s

theorem withdrawStep_frame (before after : LoopState) (s : State) :
    KeepsAllBut [.tsu, .xu] s (withdrawStep before after s) := by
  unfold withdrawStep
  split
  · split <;> simp [KeepsAllBut]
  · split <;> simp [KeepsAllBut]
  · exact .refl _ s

theorem takeLoopStateTsu_frame (s : State) :
    KeepsAllBut [.tsu, .xu, .wires] s (takeLoopStateTsu s) := by
  unfold takeLoopStateTsu
  split
  · refine .trans ?_ ((withdrawStep_frame _ _ _).mono (by decide))
    simp [KeepsAllBut]
  · exact .refl _ s

/-! ### Requests: the unit's hand is emptied, then the owner acts -/

theorem takeRequest_frame {bs : List Block} {kind : Nat} {f : Slot → Params → State → State}
    (s : State) (hxu : Block.xu ∈ bs) (hf : ∀ n p s, KeepsAllBut bs s (f n p s)) :
    KeepsAllBut bs s (takeRequest kind f s) := by
  unfold takeRequest
  split
  · exact ((keepsAllBut_setXu s _).mono (by simpa using hxu)).trans (hf _ _ _)
  · exact .refl _ s

theorem takeSetTime_frame (n : Slot) (p : Params) (s : State) :
    KeepsAllBut [.tsu, .xu] s (takeSetTime n p s) := by
  unfold takeSetTime
  split
  · simp [KeepsAllBut]
  · dsimp only
    split <;> simp [KeepsAllBut]

theorem takeStepPhase_frame (n : Slot) (p : Params) (s : State) :
    KeepsAllBut [.tsu, .xu] s (takeStepPhase n p s) := by
  unfold takeStepPhase
  dsimp only
  split
  · simp [KeepsAllBut]
  · split
    · simp [KeepsAllBut]
    · split <;> simp [KeepsAllBut]

theorem setLeap_frame (l : Option ScheduledLeap) (s : State) :
    KeepsAllBut [.tsu, .wires] s (setLeap l s) := by
  simp [setLeap, KeepsAllBut]

theorem supersedeLeap_frame (s : State) : KeepsAllBut [.xu] s (supersedeLeap s) := by
  unfold supersedeLeap
  split
  · exact completeNow_frame ..
  · exact .refl _ s

theorem takeScheduleLeap_frame (n : Slot) (p : Params) (s : State) :
    KeepsAllBut [.tsu, .xu, .wires] s (takeScheduleLeap n p s) := by
  have hset : ∀ l, KeepsAllBut [.tsu, .xu, .wires] s (setLeap l (supersedeLeap s)) := fun l =>
    ((supersedeLeap_frame s).mono (by decide)).trans ((setLeap_frame l _).mono (by decide))
  have hnow : ∀ c s, KeepsAllBut [.tsu, .xu, .wires] s (completeNow n c s) := fun c s =>
    (completeNow_frame n c s).mono (by decide)
  unfold takeScheduleLeap
  split
  · exact hnow _ s
  · exact (hset none).trans (hnow _ _)
  · split
    · exact hnow _ s
    · split
      · exact hnow _ s
      · exact hset _

/-! ### The capture unit -/

theorem takePpsBoundary_frame (c : PpsChannelId) (s : State) :
    KeepsAllBut [.cap, .wires] s (takePpsBoundary c s) := by
  unfold takePpsBoundary
  split
  · exact .refl _ s
  · split <;> simp [KeepsAllBut]

theorem onWindow_frame (c : PpsChannelId) (f : CaptureRecord → CaptureRecord) (s : State) :
    KeepsAllBut [.cap] s (onWindow c f s) := by
  unfold onWindow
  split <;> simp [KeepsAllBut]

theorem takeWindowClose_frame (c : PpsChannelId) (s : State) :
    KeepsAllBut [.cap, .wires] s (takeWindowClose c s) := by
  unfold takeWindowClose
  split
  · split <;> simp [KeepsAllBut]
  · exact .refl _ s

theorem takeDividerEdge_frame (d : DividerId) (s : State) :
    KeepsAllBut [.cap] s (takeDividerEdge d s) := by
  simp [takeDividerEdge, KeepsAllBut]

theorem takeDividerBoundary_frame (d : DividerId) (s : State) :
    KeepsAllBut [.tsu, .cap, .wires] s (takeDividerBoundary d s) := by
  unfold takeDividerBoundary
  split <;> simp [KeepsAllBut]

theorem useMarker_frame (d : DividerId) (s : State) :
    KeepsAllBut [.cap, .wires] s (useMarker d s) := by
  unfold useMarker
  dsimp only
  split
  · simp [KeepsAllBut]
  · split <;> simp [KeepsAllBut]

theorem takeMarker_frame (d : DividerId) (s : State) :
    KeepsAllBut [.tsu, .cap, .wires] s (takeMarker d s) := by
  unfold takeMarker
  split
  · refine .trans (t := s.updDiv d fun v => { v with count := v.count - modulus d s }) ?_
      (.ite (fun _ => .refl _ _) fun _ =>
        ((useMarker_frame d _).mono (by decide)).trans ((pruneLog_frame _).mono (by decide)))
    simp [KeepsAllBut]
  · exact .refl _ s

theorem takeMissingExpiry_frame (d : DividerId) (s : State) :
    KeepsAllBut [.tsu, .cap, .wires] s (takeMissingExpiry d s) := by
  unfold takeMissingExpiry
  split <;> simp [KeepsAllBut]

theorem takeLineChange_frame (l : LineId) (level : Bool) (s : State) :
    KeepsAllBut [.tsu, .cap] s (takeLineChange l level s) := by
  unfold takeLineChange
  split
  · exact .refl _ s
  · dsimp only
    split <;> simp [KeepsAllBut]

/-! ### The packet unit -/

theorem judgeSlot_frame (n : SampleSlot) (s : State) :
    KeepsAllBut [.pku, .xu] s (judgeSlot n s) := by
  unfold judgeSlot
  dsimp only
  split
  · exact .refl _ s
  · split <;> simp [KeepsAllBut]

theorem evaluatePacket_frame (b : Boundary) (s : State) (k : PacketId) :
    KeepsAllBut [.pku, .wires] s (evaluatePacket b s k) := by
  unfold evaluatePacket
  dsimp only
  split <;> simp [KeepsAllBut]

theorem takePacketEvaluation_frame (s : State) :
    KeepsAllBut [.pku, .wires] s (takePacketEvaluation s) := by
  unfold takePacketEvaluation
  split
  · exact .refl _ s
  · rename_i b rest _
    dsimp only
    refine .trans ?_ ((setPku_frame _ _).mono (by decide))
    exact .trans ((setWires_frame _ _).mono (by decide)) (.foldl (evaluatePacket_frame b) _ _)

/-! ### The qualification and selection unit -/

theorem review_frame (f : Option Ref) (s : State) :
    KeepsAllBut [.qsu, .xu, .wires] s (review f s) := by simp [KeepsAllBut]

theorem enterState_frame (r : Ref) (st : RefState) (c : Option Cause) (s : State) :
    KeepsAllBut [.qsu, .xu, .wires] s (enterState r st c s) := by simp [KeepsAllBut]

theorem updRef_frame (r : Ref) (f : RefEntry → RefEntry) (s : State) :
    KeepsAllBut [.qsu, .xu, .wires] s (s.updRef r f) := by simp [KeepsAllBut]

theorem advanceRef_frame (r : Ref) (judged : Option Cause) (s : State) :
    KeepsAllBut [.qsu, .xu, .wires] s (advanceRef r judged s) := by
  unfold advanceRef
  dsimp only
  split
  · exact .refl _ s
  · split
    · exact (updRef_frame ..).trans (.ite (fun _ => enterState_frame ..) fun _ => .refl _ _)
    · exact enterState_frame ..
  · split
    · exact updRef_frame ..
    · exact (updRef_frame ..).trans (.ite (fun _ => enterState_frame ..) fun _ => .refl _ _)
  · exact .ite (fun _ => updRef_frame ..) fun _ =>
      .ite (fun _ => enterState_frame ..) fun _ => .refl _ _

theorem judgeArrival_frame (m : RawMeas) (s : State) :
    KeepsAllBut [.qsu, .xu, .wires] s (judgeArrival m s) := by
  unfold judgeArrival
  split
  · exact .refl _ s
  · refine ((updRef_frame ..).trans (advanceRef_frame ..)).trans (.ite (fun _ => ?_) fun _ => .refl _ _)
    simp [KeepsAllBut]

theorem takeArrival_frame (r : Ref) (s : State) :
    KeepsAllBut [.qsu, .xu, .wires] s (takeArrival r s) := by
  unfold takeArrival
  split
  · exact .refl _ s
  · exact ((setWires_frame ..).mono (by decide)).trans (judgeArrival_frame ..)

theorem takeVerdict_frame (s : State) : KeepsAllBut [.qsu, .xu, .wires] s (takeVerdict s) := by
  unfold takeVerdict
  split
  · exact .refl _ s
  · exact ((setWires_frame ..).mono (by decide)).trans
      (.ite (fun _ => enterState_frame ..) fun _ => .refl _ _)

theorem takeLineChangeQsu_frame (l : LineId) (level : Bool) (s : State) :
    KeepsAllBut [.qsu, .xu, .wires] s (takeLineChangeQsu l level s) := by
  unfold takeLineChangeQsu
  split
  · exact .refl _ s
  · refine .trans (t := s.setQsu { s.qsu with lineOk := s.qsu.lineOk.set l level }) ?_
      (.ite (fun _ => .refl _ _) fun _ => enterState_frame ..)
    simp [KeepsAllBut]

theorem takeWarmUpEnd_frame (s : State) :
    KeepsAllBut [.qsu, .lpu, .xu, .wires] s (takeWarmUpEnd s) := by
  unfold takeWarmUpEnd
  split <;> simp [KeepsAllBut]

theorem configureMeasuring_frame (r : Ref) (enabled : Bool) (s : State) :
    KeepsAllBut [.tsu, .cap, .pku] s (configureMeasuring r enabled s) := by
  unfold configureMeasuring configurePps configureDivider configurePacket
  split
  · simp [KeepsAllBut]
  · split <;> simp [KeepsAllBut]

theorem applyRefConfig_frame (r : Ref) (cfg : RefConfig) (s : State) :
    KeepsAllBut [.tsu, .cap, .pku, .qsu, .xu, .wires] s (applyRefConfig r cfg s) := by
  unfold applyRefConfig
  dsimp only
  refine .trans ?_ ((review_frame _ _).mono (by decide))
  refine .trans ?_ ((updRef_frame _ _ _).mono (by decide))
  refine .trans ?_ (t := configureMeasuring r cfg.enabled (s.updRef r fun e => { e with cfg := cfg })) ?_
  · exact .trans ((updRef_frame _ _ _).mono (by decide))
      ((configureMeasuring_frame r _ _).mono (by decide))
  · simp [KeepsAllBut]

theorem takeConfigureReference_frame (n : Slot) (p : Params) (s : State) :
    KeepsAllBut [.tsu, .cap, .pku, .qsu, .xu, .wires] s (takeConfigureReference n p s) := by
  unfold takeConfigureReference
  split
  · simp [KeepsAllBut]
  · split
    · simp [KeepsAllBut]
    · exact (applyRefConfig_frame ..).trans ((completeNow_frame ..).mono (by decide))

theorem takeSetPriority_frame (n : Slot) (p : Params) (s : State) :
    KeepsAllBut [.qsu, .xu, .wires] s (takeSetPriority n p s) := by
  unfold takeSetPriority
  split <;> simp [KeepsAllBut]

theorem declareRef_frame (r : Ref) (valid : Bool) (s : State) :
    KeepsAllBut [.qsu, .xu, .wires] s (declareRef r valid s) := by
  unfold declareRef
  exact .ite (fun _ => .refl _ s) fun _ =>
    (updRef_frame ..).trans (.ite (fun _ => .refl _ _) fun _ => enterState_frame ..)

theorem takeDeclareReference_frame (n : Slot) (p : Params) (s : State) :
    KeepsAllBut [.qsu, .xu, .wires] s (takeDeclareReference n p s) := by
  unfold takeDeclareReference
  split
  · exact (declareRef_frame ..).trans ((completeNow_frame ..).mono (by decide))
  · simp [KeepsAllBut]

theorem takeSelectMode_frame (n : Slot) (p : Params) (s : State) :
    KeepsAllBut [.qsu, .xu, .wires] s (takeSelectMode n p s) := by
  unfold takeSelectMode
  split <;> simp [KeepsAllBut]

theorem setForcedHoldover_frame (v : Bool) (s : State) :
    KeepsAllBut [.qsu, .xu, .wires] s (setForcedHoldover v s) := by
  unfold setForcedHoldover
  split <;> simp [KeepsAllBut]

theorem takeHoldoverControl_frame (n : Slot) (p : Params) (s : State) :
    KeepsAllBut [.qsu, .xu, .wires] s (takeHoldoverControl n p s) := by
  have hset : ∀ v, KeepsAllBut [.qsu, .xu, .wires] s (completeNow n .ok (setForcedHoldover v s)) :=
    fun v => (setForcedHoldover_frame v s).trans ((completeNow_frame ..).mono (by decide))
  have hnow : ∀ c, KeepsAllBut [.qsu, .xu, .wires] s (completeNow n c s) := fun c =>
    (completeNow_frame n c s).mono (by decide)
  unfold takeHoldoverControl
  exact .ite (fun _ => .ite (fun _ => hnow _) fun _ => hset _) fun _ =>
    .ite (fun _ => hset _) fun _ => hnow _

/-! ### The steering loop -/

theorem changeLoopSelection_frame (new : Option Ref) (fault : Bool) (s : State) :
    KeepsAllBut [.lpu, .wires] s (changeLoopSelection new fault s) := by
  unfold changeLoopSelection
  dsimp only
  split <;> simp [KeepsAllBut]

theorem takeLoopSelection_frame (s : State) :
    KeepsAllBut [.lpu, .wires] s (takeLoopSelection s) := by
  unfold takeLoopSelection
  split
  · exact ((setWires_frame ..).mono (by decide)).trans (changeLoopSelection_frame ..)
  · exact .refl _ s

theorem compute_frame (x : Int) (s : State) : KeepsAllBut [.tsu, .lpu, .wires] s (compute x s) := by
  simp [KeepsAllBut]

theorem gateAcquire_frame (e : Int) (s : State) :
    KeepsAllBut [.tsu, .lpu, .wires] s (gateAcquire e s) := by
  unfold gateAcquire
  dsimp only
  exact .ite (fun _ => compute_frame ..) fun _ =>
    .ite (fun _ => by simp [KeepsAllBut]) fun _ => compute_frame ..

theorem checkLock_frame (e : Int) (s : State) :
    KeepsAllBut [.lpu, .xu, .wires] s (checkLock e s) := by
  unfold checkLock
  split
  · simp [KeepsAllBut, ownStateChange]
  · exact .refl _ s

theorem measureAcquire_frame (e : Int) (s : State) :
    KeepsAllBut [.tsu, .lpu, .xu, .wires] s (measureAcquire e s) := by
  unfold measureAcquire
  dsimp only
  refine ((gateAcquire_frame e s).mono (by decide)).trans (.trans ?_
    ((checkLock_frame e _).mono (by decide)))
  simp [KeepsAllBut, countLock]

theorem takeOutlier_frame (s : State) : KeepsAllBut [.lpu, .wires] s (takeOutlier s) := by
  unfold takeOutlier
  dsimp only
  split
  · split <;> simp [KeepsAllBut]
  · simp [KeepsAllBut]

/-- The input of the computation in TRACK (R89). -/
def trackInput (e : Int) (s : State) : Int :=
  if e.natAbs ≤ s.lpu.cfg.unlockThreshold then e else limitInput e s.lpu.cfg.unlockThreshold

/-- The unlock count after a measurement in TRACK that is no outlier (R89). -/
def trackUnlocks (e : Int) (s : State) : Nat :=
  if e.natAbs ≤ s.lpu.cfg.unlockThreshold then 0
  else satSucc (compute (trackInput e s) s).lpu.unlockCount 255

/-- A measurement in TRACK that is no outlier has steered, F and the uncertainty handed on (R89, R96,
R97). -/
def trackSteered (e : Int) (s : State) : State :=
  let c := compute (trackInput e s) s
  let c := feedHistory (c.setLpu { c.lpu with outliers := 0, unlockCount := trackUnlocks e s })
  handHou (.uncertainty (uncertaintyOf e c)) c

/-- A measurement in TRACK is an outlier, or steers and perhaps unlocks (R88, R89). -/
theorem measureTrack_eq (e : Int) (s : State) :
    measureTrack e s =
      if s.lpu.cfg.stepThreshold < e.natAbs then takeOutlier s
      else if !decide (e.natAbs ≤ s.lpu.cfg.unlockThreshold)
          && decide (s.lpu.cfg.unlockLimit ≤ trackUnlocks e s) then
        ownStateChange .track .acquire ((trackSteered e s).setLpu
          { (trackSteered e s).lpu with state := .acquire, lockCount := 0, outliers := 0 })
      else trackSteered e s := rfl

theorem trackSteered_frame (e : Int) (s : State) :
    KeepsAllBut [.tsu, .lpu, .wires] s (trackSteered e s) := by
  simp [trackSteered, feedHistory, KeepsAllBut]

theorem measureTrack_frame (e : Int) (s : State) :
    KeepsAllBut [.tsu, .lpu, .xu, .wires] s (measureTrack e s) := by
  have hs := (trackSteered_frame e s).mono (cs := [.tsu, .lpu, .xu, .wires]) (by decide)
  rw [measureTrack_eq]
  refine .ite (fun _ => (takeOutlier_frame s).mono (by decide)) fun _ =>
    .ite (fun _ => hs.trans ?_) fun _ => hs
  simp [KeepsAllBut, ownStateChange]

theorem measureAssisted_frame (delta : Option Int) (newChain : Bool) (s : State) :
    KeepsAllBut [.tsu, .lpu, .wires] s (measureAssisted delta newChain s) := by
  simp [measureAssisted, feedHistory, KeepsAllBut]

theorem takeMeasurement_frame (e delta : Option Int) (newChain : Bool) (s : State) :
    KeepsAllBut [.tsu, .lpu, .xu, .wires] s (takeMeasurement e delta newChain s) := by
  unfold takeMeasurement
  split
  · exact ((setLpu_frame ..).mono (by decide)).trans (measureAcquire_frame ..)
  · exact ((setLpu_frame ..).mono (by decide)).trans (measureTrack_frame ..)
  · exact (measureAssisted_frame ..).mono (by decide)
  · exact .refl _ s
  · exact .refl _ s

theorem takeForwarded_frame (s : State) :
    KeepsAllBut [.tsu, .lpu, .xu, .wires] s (takeForwarded s) := by
  unfold takeForwarded
  split
  · exact ((setWires_frame ..).mono (by decide)).trans
      (.ite (fun _ => takeMeasurement_frame ..) fun _ => .refl _ _)
  · exact .refl _ s

theorem takeUnusable_frame (s : State) : KeepsAllBut [.lpu, .wires] s (takeUnusable s) := by
  unfold takeUnusable
  split
  · dsimp only
    split <;> simp [KeepsAllBut]
  · exact .refl _ s

theorem takeLpuBoundary_frame (s : State) : KeepsAllBut [.lpu, .wires] s (takeLpuBoundary s) := by
  unfold takeLpuBoundary
  split <;> simp [KeepsAllBut, boundaryLpu]

theorem applyLoopConfig_frame (cfg : LoopConfig) (s : State) :
    KeepsAllBut [.tsu, .lpu, .wires] s (applyLoopConfig cfg s) := by
  unfold applyLoopConfig
  dsimp only
  split <;> simp [KeepsAllBut]

theorem takeConfigureLoop_frame (n : Slot) (p : Params) (s : State) :
    KeepsAllBut [.tsu, .lpu, .xu, .wires] s (takeConfigureLoop n p s) := by
  unfold takeConfigureLoop
  split
  · simp [KeepsAllBut]
  · exact ((applyLoopConfig_frame ..).mono (by decide)).trans ((completeNow_frame ..).mono (by decide))

/-! ### The holdover unit -/

theorem settleHou_frame (h : Hou) (s : State) : KeepsAllBut [.hou, .wires] s (settleHou h s) := by
  simp [KeepsAllBut]

theorem settleHou_setWires_frame (h : Hou) (w : Wires) (s : State) :
    KeepsAllBut [.hou, .wires] s (settleHou h (s.setWires w)) := by
  simp [KeepsAllBut]

theorem workBoundary_frame (s : State) :
    KeepsAllBut [.tsu, .lpu, .hou, .wires] s (workBoundary s) := by
  unfold workBoundary
  dsimp only
  split <;> simp [KeepsAllBut, handValues]

theorem takeHouBoundary_frame (s : State) :
    KeepsAllBut [.tsu, .lpu, .hou, .wires] s (takeHouBoundary s) := by
  unfold takeHouBoundary
  split
  · exact .refl _ s
  · split
    · exact .refl _ s
    · exact ((setWires_frame ..).mono (by decide)).trans (workBoundary_frame _)

theorem takeIntervalEnd_frame (s : State) : KeepsAllBut [.hou, .wires] s (takeIntervalEnd s) :=
  .ite (fun _ => settleHou_frame ..) fun _ => .refl _ s

theorem takeFeed_frame (s : State) : KeepsAllBut [.hou, .wires] s (takeFeed s) := by
  refine .ite (fun _ => .refl _ s) fun _ => ?_
  split
  · exact settleHou_setWires_frame ..
  · exact .refl _ s

theorem takeUncertainty_frame (s : State) : KeepsAllBut [.hou, .wires] s (takeUncertainty s) := by
  refine .ite (fun _ => .refl _ s) fun _ => ?_
  split
  · exact settleHou_setWires_frame ..
  · exact .refl _ s

theorem takeGuardPop_frame (s : State) : KeepsAllBut [.hou, .wires] s (takeGuardPop s) := by
  refine .ite (fun _ => .refl _ s) fun _ => ?_
  split
  · exact settleHou_setWires_frame ..
  · exact .refl _ s

theorem takeLoopStateHou_frame (s : State) :
    KeepsAllBut [.hou, .wires] s (takeLoopStateHou s) := by
  refine .ite (fun _ => .refl _ s) fun _ => ?_
  split
  · exact settleHou_setWires_frame ..
  · exact .refl _ s

theorem takeConfigureHoldover_frame (n : Slot) (p : Params) (s : State) :
    KeepsAllBut [.hou, .xu, .wires] s (takeConfigureHoldover n p s) := by
  unfold takeConfigureHoldover
  split <;> simp [KeepsAllBut]

theorem takeClearHistory_frame (n : Slot) (p : Params) (s : State) :
    KeepsAllBut [.hou, .xu, .wires] s (takeClearHistory n p s) := by
  simp [takeClearHistory, KeepsAllBut]

/-! ### The port unit -/

theorem boundaryWork_frame (v : WorkView) (s : State) :
    KeepsAllBut [.ptu, .xu, .wires] s (boundaryWork v s) := by
  unfold boundaryWork
  refine .trans (.foldl (f := workPort v) (fun s p => ?_) (List.finRange 12) s) ?_
  · simp [KeepsAllBut]
  · simp [KeepsAllBut]

theorem takeBoundaryWork_frame (s : State) :
    KeepsAllBut [.ptu, .xu, .wires] s (takeBoundaryWork s) := by
  unfold takeBoundaryWork
  split
  · exact ((setWires_frame ..).mono (by decide)).trans (boundaryWork_frame ..)
  · exact .refl _ s

theorem takePeriodBegin_frame (p : Port) (s : State) :
    KeepsAllBut [.ptu] s (takePeriodBegin p s) :=
  .ite (fun _ => by simp [KeepsAllBut]) fun _ => .refl _ s

theorem updPort_frame (s : State) (p : Port) (f : PortEntry → PortEntry) :
    KeepsAllBut [.ptu] s (s.updPort p f) := by simp [KeepsAllBut]

theorem takePortEdge_frame (p : Port) (s : State) : KeepsAllBut [.ptu] s (takePortEdge p s) := by
  unfold takePortEdge
  split
  · exact .refl _ s
  · exact .ite (fun _ => .ite (fun _ => updPort_frame ..) fun _ =>
      .ite (fun _ => updPort_frame ..) fun _ => .refl _ s) fun _ => .refl _ s

theorem takeMessage_frame (p : Port) (s : State) : KeepsAllBut [.ptu] s (takeMessage p s) := by
  unfold takeMessage
  split
  · exact .refl _ s
  · exact .ite (fun _ => updPort_frame ..) fun _ => updPort_frame ..

theorem takeConfigurePort_frame (n : Slot) (p : Params) (s : State) :
    KeepsAllBut [.ptu, .xu] s (takeConfigurePort n p s) := by
  unfold takeConfigurePort
  split
  · simp [KeepsAllBut]
  · split
    · simp [KeepsAllBut]
    · refine .ite (fun _ => (completeNow_frame ..).mono (by decide)) fun _ => ?_
      refine .trans ?_ ((updPort_frame ..).mono (by decide))
      unfold supersedeStaging
      split
      · exact (completeNow_frame ..).mono (by decide)
      · exact .refl _ s

theorem takeMeasure_frame (n : Slot) (p : Params) (s : State) :
    KeepsAllBut [.ptu, .xu] s (takeMeasure n p s) := by
  have hnow : ∀ c, KeepsAllBut [.ptu, .xu] s (completeNow n c s) := fun c =>
    (completeNow_frame n c s).mono (by decide)
  unfold takeMeasure
  split
  · exact hnow _
  · refine .ite (fun _ => hnow _) fun _ => .ite (fun _ => hnow _) fun _ => ?_
    split
    · exact hnow _
    · simp [claimAux, KeepsAllBut]

theorem decideSample_frame (a : AuxId) (r : RoundTrip) (m : DelayMeas) (s : State) :
    KeepsAllBut [.ptu, .xu, .wires] s (decideSample a r m s) := by simp [KeepsAllBut]

theorem takePeriodNotice_frame (a : AuxId) (s : State) :
    KeepsAllBut [.ptu, .xu, .wires] s (takePeriodNotice a s) := by
  unfold takePeriodNotice
  split
  · exact .refl _ s
  · split
    · unfold takeNotice
      dsimp only
      split
      · simp [KeepsAllBut]
      · exact decideSample_frame ..
    · exact .refl _ s

theorem takeAuxEdge_frame (a : AuxId) (s : State) :
    KeepsAllBut [.ptu, .xu, .wires] s (takeAuxEdge a s) := by
  unfold takeAuxEdge
  split
  · exact .refl _ s
  · split
    · exact .refl _ s
    · exact .ite (fun _ => .refl _ s) fun _ => decideSample_frame ..

theorem takeWindowExpiry_frame (a : AuxId) (s : State) :
    KeepsAllBut [.ptu, .xu, .wires] s (takeWindowExpiry a s) := by
  unfold takeWindowExpiry
  split
  · exact .refl _ s
  · split
    · exact .ite (fun _ => decideSample_frame ..) fun _ => .refl _ s
    · exact .refl _ s

theorem takeInterrupted_frame (a : AuxId) (s : State) :
    KeepsAllBut [.ptu, .xu] s (takeInterrupted a s) := by
  unfold takeInterrupted
  split
  · exact .refl _ s
  · split
    · simp [KeepsAllBut]
    · exact .refl _ s

/-! ### The alarm unit -/

theorem changeAlarm_frame (c : AlarmCode) (st : AlarmState) (l : Label) (s : State) :
    KeepsAllBut [.alu, .xu] s (changeAlarm c st l s) := by simp [KeepsAllBut]

theorem acceptCondition_frame (c : AlarmCode) (present : Bool) (s : State) :
    KeepsAllBut [.alu, .xu] s (acceptCondition c present s) := by
  unfold acceptCondition
  refine .ite (fun _ => .refl _ s) fun _ => ?_
  dsimp only
  split <;> simp [KeepsAllBut]

theorem takeCondition_frame (c : AlarmCode) (s : State) :
    KeepsAllBut [.alu, .xu, .wires] s (takeCondition c s) := by
  unfold takeCondition
  refine .ite (fun _ => .refl _ s) fun _ => ?_
  split
  · exact .refl _ s
  · exact ((setWires_frame ..).mono (by decide)).trans ((acceptCondition_frame ..).mono (by decide))

theorem takeAluBoundary_frame (s : State) : KeepsAllBut [.alu, .wires] s (takeAluBoundary s) := by
  unfold takeAluBoundary
  refine .ite (fun _ => .refl _ s) fun _ => ?_
  split <;> simp [KeepsAllBut]

theorem applyAlarmConfig_frame (m : AlarmParams) (s : State) :
    KeepsAllBut [.alu, .xu] s (applyAlarmConfig m s) := by
  unfold applyAlarmConfig
  dsimp only
  split
  · simp [KeepsAllBut]
  · split <;> simp [KeepsAllBut]

theorem takeConfigureAlarm_frame (n : Slot) (p : Params) (s : State) :
    KeepsAllBut [.alu, .xu] s (takeConfigureAlarm n p s) := by
  unfold takeConfigureAlarm
  split
  · simp [KeepsAllBut]
  · exact (applyAlarmConfig_frame ..).trans ((completeNow_frame ..).mono (by decide))

/-! ### The exchange unit -/

theorem exchangeReset_frame (s : State) :
    KeepsAllBut [.tsu, .pku, .ptu, .xu, .wires] s (exchangeReset s) := by
  simp [exchangeReset, resetPortsExchange, resetBoard, resetHostTime, resetExchangeUnit, setLeap,
    KeepsAllBut]

theorem postSlot_frame (n : Slot) (s : State) : KeepsAllBut [.xu] s (postSlot n s) := by
  unfold postSlot
  split <;> simp [KeepsAllBut]

theorem freeSlotWrite_frame (n : Slot) (s : State) : KeepsAllBut [.xu] s (freeSlotWrite n s) := by
  unfold freeSlotWrite
  split <;> simp [KeepsAllBut]

theorem writeSlot_frame (n : Slot) (w : Nat) (v : Word) (s : State) :
    KeepsAllBut [.xu] s (writeSlot n w v s) :=
  .ite (fun _ => .ite (fun _ => postSlot_frame ..) fun _ =>
    .ite (fun _ => freeSlotWrite_frame ..) fun _ => .refl _ s) fun _ => by simp [KeepsAllBut]

theorem writeSample_frame (n : SampleSlot) (w : Nat) (v : Word) (s : State) :
    KeepsAllBut [.pku, .xu] s (writeSample n w v s) :=
  .ite (fun _ => .ite (fun _ => judgeSlot_frame ..) fun _ => .refl _ s) fun _ => by
    simp [KeepsAllBut]

theorem writeAttention_frame (c : AttnClass) (w : Nat) (v : Word) (s : State) :
    KeepsAllBut [.xu] s (writeAttention c w v s) :=
  .ite (fun _ => keepsAllBut_setXu ..) fun _ =>
    .ite (fun _ => keepsAllBut_setXu ..) fun _ => .refl _ s

theorem writeAlarm_frame (c : AlarmCode) (w : Nat) (v : Word) (s : State) :
    KeepsAllBut [.alu] s (writeAlarm c w v s) :=
  .ite (fun _ => by simp [KeepsAllBut]) fun _ => .refl _ s

theorem releaseLatch_frame (s : State) : KeepsAllBut [.xu] s (releaseLatch s) :=
  keepsAllBut_setXu ..

theorem storeWord_frame (addr : WordAddr) (v : Word) (s : State) :
    KeepsAllBut [.tsu, .pku, .ptu, .alu, .xu, .wires] s (storeWord addr v s) := by
  unfold storeWord
  dsimp only
  split
  · exact (writeAttention_frame ..).mono (by decide)
  · split
    · exact (writeSlot_frame ..).mono (by decide)
    · split
      · exact (writeSample_frame ..).mono (by decide)
      · split
        · exact (writeAlarm_frame ..).mono (by decide)
        · exact .ite (fun _ => (exchangeReset_frame s).mono (by decide)) fun _ => .refl _ s

theorem hostRead_frame (addr : WordAddr) (s : State) :
    KeepsAllBut [.xu, .readData] s (hostRead addr s) := by
  unfold hostRead
  split
  · simp [KeepsAllBut]
  · dsimp only
    split
    · simp [KeepsAllBut, setLatch]
    · split
      · split <;> simp [KeepsAllBut]
      · simp [KeepsAllBut]

theorem takeHead_frame (s : State) : KeepsAllBut [.xu] s (takeHead s) := by
  unfold takeHead
  split
  · dsimp only
    split <;> simp [KeepsAllBut]
  · exact .refl _ s

theorem takeEpoch_frame (s : State) : KeepsAllBut [.xu, .wires] s (takeEpoch s) := by
  unfold takeEpoch
  split <;> simp [KeepsAllBut]

/-! ### All commands -/

/-- The blocks a command may touch. -/
def footprint : Instr → List Block
  | .powerOnReset _ _ | .lineReset =>
    [.tsu, .cap, .pku, .qsu, .lpu, .hou, .ptu, .alu, .xu, .wires, .readData]
  | .exchangeReset => [.tsu, .pku, .ptu, .xu, .wires]
  | .hostWrite _ _ => [.tsu, .pku, .ptu, .alu, .xu, .wires]
  | .readRecordFirstWord _ | .readLatchedWord _ => [.xu, .readData]
  | .oscInCycle => [.tsu, .cap, .ptu]
  | .secondBoundary => [.tsu, .cap, .ptu, .xu, .wires]
  | .warmUpEnd => [.qsu, .lpu, .xu, .wires]
  | .negativeStepHoldEnd => [.tsu]
  | .ppsChannelBoundary _ | .windowClose _ => [.cap, .wires]
  | .ppsLeadingEdge _ | .ppsTrailingEdge _ | .dividerEdge _ => [.cap]
  | .dividerBoundary _ | .marker _ | .missingTimerExpiry _ => [.tsu, .cap, .wires]
  | .lineOkChangeCapture _ _ => [.tsu, .cap]
  | .sampleReady _ => [.pku, .xu]
  | .packetEvaluation => [.pku, .wires]
  | .lineOkChangeQsu _ _ | .measurementArrival _ | .jumpVerdict | .setPriority
  | .declareReference | .selectMode | .holdoverControl => [.qsu, .xu, .wires]
  | .loopSelectionChange | .unusableNotice | .lpuBoundary => [.lpu, .wires]
  | .forwardedMeasurement | .configureLoop => [.tsu, .lpu, .xu, .wires]
  | .loopStepOrder => [.tsu, .wires]
  | .loopStateChangeTsu | .scheduleLeap => [.tsu, .xu, .wires]
  | .historyFeed | .uncertaintyValue | .guardPopNotice | .loopStateChangeHou | .intervalEnd =>
    [.hou, .wires]
  | .houBoundary => [.tsu, .lpu, .hou, .wires]
  | .ptuBoundaryWork | .auxLeadingEdge _ | .periodNotice _ | .windowTimerExpiry _ =>
    [.ptu, .xu, .wires]
  | .periodBegin _ | .portEdge _ | .siteTimeMessage _ => [.ptu]
  | .measurementInterrupted _ | .configurePort | .measurePortDelay => [.ptu, .xu]
  | .conditionChange _ => [.alu, .xu, .wires]
  | .aluBoundary => [.alu, .wires]
  | .raiseDelayExpiry _ | .clearDelayExpiry _ | .alarmAck _ _ | .configureAlarm => [.alu, .xu]
  | .epochReport => [.xu, .wires]
  | .requestPosted _ | .requestSlotFree _ | .requestTake | .attentionAck _ _
  | .attentionRoute _ _ => [.xu]
  | .configureReference => [.tsu, .cap, .pku, .qsu, .xu, .wires]
  | .configureHoldover | .clearHistory => [.hou, .xu, .wires]
  | .setTime | .stepPhase => [.tsu, .xu]

/-- The frame of every command. -/
theorem exec_frame {c : Instr} {s t : State} (h : exec c s = .next t) :
    KeepsAllBut (footprint c) s t := by
  cases c <;> cases h
  case powerOnReset => simp [KeepsAllBut, footprint, powerOn, resetBlocks]
  case lineReset => simp [KeepsAllBut, footprint, lineReset, resetBlocks]
  case exchangeReset => exact exchangeReset_frame s
  case hostWrite => exact ((releaseLatch_frame s).mono (by simp [footprint])).trans (storeWord_frame ..)
  case readRecordFirstWord => exact hostRead_frame ..
  case readLatchedWord => exact hostRead_frame ..
  case oscInCycle => exact takeOscCycle_frame s
  case secondBoundary => exact takeSecondBoundary_frame s
  case warmUpEnd => exact takeWarmUpEnd_frame s
  case negativeStepHoldEnd => exact takeHoldEnd_frame s
  case ppsChannelBoundary => exact takePpsBoundary_frame ..
  case ppsLeadingEdge => exact onWindow_frame ..
  case ppsTrailingEdge => exact onWindow_frame ..
  case windowClose => exact takeWindowClose_frame ..
  case dividerEdge => exact takeDividerEdge_frame ..
  case dividerBoundary => exact takeDividerBoundary_frame ..
  case marker => exact takeMarker_frame ..
  case missingTimerExpiry => exact takeMissingExpiry_frame ..
  case lineOkChangeCapture => exact takeLineChange_frame ..
  case lineOkChangeQsu => exact takeLineChangeQsu_frame ..
  case auxLeadingEdge => exact takeAuxEdge_frame ..
  case sampleReady =>
    exact ((releaseLatch_frame s).mono (by simp [footprint])).trans (judgeSlot_frame ..)
  case packetEvaluation => exact takePacketEvaluation_frame s
  case measurementArrival => exact takeArrival_frame ..
  case jumpVerdict => exact takeVerdict_frame s
  case loopSelectionChange => exact takeLoopSelection_frame s
  case forwardedMeasurement => exact takeForwarded_frame s
  case unusableNotice => exact takeUnusable_frame s
  case loopStepOrder => exact takeLoopStep_frame s
  case loopStateChangeTsu => exact takeLoopStateTsu_frame s
  case lpuBoundary => exact takeLpuBoundary_frame s
  case historyFeed => exact takeFeed_frame s
  case uncertaintyValue => exact takeUncertainty_frame s
  case guardPopNotice => exact takeGuardPop_frame s
  case loopStateChangeHou => exact takeLoopStateHou_frame s
  case houBoundary => exact takeHouBoundary_frame s
  case intervalEnd => exact takeIntervalEnd_frame s
  case ptuBoundaryWork => exact takeBoundaryWork_frame s
  case periodBegin => exact takePeriodBegin_frame ..
  case portEdge => exact takePortEdge_frame ..
  case siteTimeMessage => exact takeMessage_frame ..
  case periodNotice => exact takePeriodNotice_frame ..
  case windowTimerExpiry => exact takeWindowExpiry_frame ..
  case measurementInterrupted => exact takeInterrupted_frame ..
  case conditionChange => exact takeCondition_frame ..
  case aluBoundary => exact takeAluBoundary_frame s
  case raiseDelayExpiry => exact .ite (fun _ => changeAlarm_frame ..) fun _ => .refl _ s
  case clearDelayExpiry => exact .ite (fun _ => changeAlarm_frame ..) fun _ => .refl _ s
  case alarmAck => simp [KeepsAllBut, footprint]
  case epochReport => exact takeEpoch_frame s
  case requestPosted => exact (releaseLatch_frame s).trans (postSlot_frame ..)
  case requestSlotFree => exact (releaseLatch_frame s).trans (freeSlotWrite_frame ..)
  case requestTake => exact takeHead_frame s
  case configureReference =>
    exact .ite (fun _ => .refl _ s) fun _ =>
      takeRequest_frame s (by decide) takeConfigureReference_frame
  case setPriority => exact takeRequest_frame s (by decide) takeSetPriority_frame
  case declareReference => exact takeRequest_frame s (by decide) takeDeclareReference_frame
  case selectMode => exact takeRequest_frame s (by decide) takeSelectMode_frame
  case holdoverControl => exact takeRequest_frame s (by decide) takeHoldoverControl_frame
  case configureLoop => exact takeRequest_frame s (by decide) takeConfigureLoop_frame
  case configureHoldover =>
    exact .ite (fun _ => .refl _ s) fun _ =>
      takeRequest_frame s (by decide) takeConfigureHoldover_frame
  case clearHistory =>
    exact .ite (fun _ => .refl _ s) fun _ =>
      takeRequest_frame s (by decide) takeClearHistory_frame
  case setTime => exact takeRequest_frame s (by decide) takeSetTime_frame
  case stepPhase => exact takeRequest_frame s (by decide) takeStepPhase_frame
  case scheduleLeap => exact takeRequest_frame s (by decide) takeScheduleLeap_frame
  case configurePort => exact takeRequest_frame s (by decide) takeConfigurePort_frame
  case measurePortDelay => exact takeRequest_frame s (by decide) takeMeasure_frame
  case configureAlarm =>
    exact .ite (fun _ => .refl _ s) fun _ =>
      takeRequest_frame s (by decide) takeConfigureAlarm_frame
  case attentionAck => exact (releaseLatch_frame s).trans (keepsAllBut_setXu ..)
  case attentionRoute => exact (releaseLatch_frame s).trans (keepsAllBut_setXu ..)

end Sys2Proof.Machine
end

section
/-! PROOFS. What a step keeps: from the commands to the step, and what the commands other than host
accesses and resets do to the exchange unit. -/

namespace Sys2Proof.Safety

open Sys2Proof.Machine

/-! ### A block outside a frame is as it was -/

theorem KeepsAllBut.tsu_eq {bs : List Block} {s t : State} (h : KeepsAllBut bs s t)
    (hb : Block.tsu ∉ bs) : t.tsu = s.tsu := h.1.resolve_left hb

theorem KeepsAllBut.cap_eq {bs : List Block} {s t : State} (h : KeepsAllBut bs s t)
    (hb : Block.cap ∉ bs) : t.cap = s.cap := h.2.1.resolve_left hb

theorem KeepsAllBut.pku_eq {bs : List Block} {s t : State} (h : KeepsAllBut bs s t)
    (hb : Block.pku ∉ bs) : t.pku = s.pku := h.2.2.1.resolve_left hb

theorem KeepsAllBut.qsu_eq {bs : List Block} {s t : State} (h : KeepsAllBut bs s t)
    (hb : Block.qsu ∉ bs) : t.qsu = s.qsu := h.2.2.2.1.resolve_left hb

theorem KeepsAllBut.lpu_eq {bs : List Block} {s t : State} (h : KeepsAllBut bs s t)
    (hb : Block.lpu ∉ bs) : t.lpu = s.lpu := h.2.2.2.2.1.resolve_left hb

theorem KeepsAllBut.hou_eq {bs : List Block} {s t : State} (h : KeepsAllBut bs s t)
    (hb : Block.hou ∉ bs) : t.hou = s.hou := h.2.2.2.2.2.1.resolve_left hb

theorem KeepsAllBut.ptu_eq {bs : List Block} {s t : State} (h : KeepsAllBut bs s t)
    (hb : Block.ptu ∉ bs) : t.ptu = s.ptu := h.2.2.2.2.2.2.1.resolve_left hb

theorem KeepsAllBut.alu_eq {bs : List Block} {s t : State} (h : KeepsAllBut bs s t)
    (hb : Block.alu ∉ bs) : t.alu = s.alu := h.2.2.2.2.2.2.2.1.resolve_left hb

theorem KeepsAllBut.xu_eq {bs : List Block} {s t : State} (h : KeepsAllBut bs s t)
    (hb : Block.xu ∉ bs) : t.xu = s.xu := h.2.2.2.2.2.2.2.2.1.resolve_left hb

theorem KeepsAllBut.wires_eq {bs : List Block} {s t : State} (h : KeepsAllBut bs s t)
    (hb : Block.wires ∉ bs) : t.wires = s.wires := h.2.2.2.2.2.2.2.2.2.1.resolve_left hb

end Sys2Proof.Safety

namespace Sys2Proof.Machine

open Sys2Proof.Safety

/-- A law that every command keeps, and that does not read the command queue, every step keeps. -/
theorem step_keeps {P : State → Prop} (hpend : ∀ s q, P s → P (s.withPending q))
    (hexec : ∀ c s t, P s → exec c s = .next t → P t) (s s' : State) (hs : P s)
    (h : step s = .next s') : P s' := by
  unfold step at h
  split at h
  · cases h; exact hs
  · exact hexec _ _ _ (hpend s _ hs) h

/-! ### The exchange unit under bumps, completions and the unit's hand -/

/-- What every command that is no host access, reset, take or epoch report does to the exchange unit:
bumps, completions of TAKEN slots, and the unit's hand (R170 to R172). -/
inductive XuPlain (x : Xu) : Xu → Prop
  | refl : XuPlain x x
  | bump (c : AttnClass) {y : Xu} : XuPlain x y → XuPlain x (bumpXu c y)
  | slot (n : Slot) (f : RequestSlot → RequestSlot) {y : Xu} : y.slots[n].state = .taken →
      (f y.slots[n]).state = .done → XuPlain x y → XuPlain x { y with slots := updAt y.slots n f }
  | hand (u : Option Slot) {y : Xu} : XuPlain x y → XuPlain x { y with unit := u }

theorem XuPlain.of_eq {x y z : Xu} (h : XuPlain x y) (he : z = y) : XuPlain x z := he ▸ h

theorem XuPlain.ite {x : Xu} {p : Prop} [Decidable p] {s t : State} (hs : p → XuPlain x s.xu)
    (ht : ¬p → XuPlain x t.xu) : XuPlain x (if p then s else t).xu := by
  split <;> simp_all

theorem XuPlain.complete {x : Xu} {s : State} (h : XuPlain x s.xu) (n : Slot) (c : Completion)
    (l : Label) (ws : List Word) : XuPlain x (complete n c l ws s).xu := by
  unfold Machine.complete
  refine .ite (fun hn => ?_) fun _ => h
  exact .bump clsDone (.slot n _ hn rfl h)

theorem XuPlain.completeNow {x : Xu} {s : State} (h : XuPlain x s.xu) (n : Slot) (c : Completion) :
    XuPlain x (completeNow n c s).xu := h.complete ..

theorem XuPlain.review {x : Xu} {s : State} (h : XuPlain x s.xu) (f : Option Ref) :
    XuPlain x (review f s).xu := by
  simp only [Machine.review, settleForce_xu]
  exact .ite (fun _ => h) fun _ => .bump clsSelect h

theorem XuPlain.enterState {x : Xu} {s : State} (h : XuPlain x s.xu) (r : Ref) (st : RefState)
    (c : Option Cause) : XuPlain x (enterState r st c s).xu := by
  have h' : XuPlain x (setRefState r st c s).xu := h.of_eq (setRefState_xu ..)
  exact .ite (fun _ => h') fun _ => h'.review _

theorem XuPlain.ownStateChange {x : Xu} {s : State} (h : XuPlain x s.xu) (a b : LoopState) :
    XuPlain x (ownStateChange a b s).xu := .bump clsSelect h

theorem XuPlain.changeAlarm {x : Xu} {s : State} (h : XuPlain x s.xu) (c : AlarmCode)
    (st : AlarmState) (l : Label) : XuPlain x (changeAlarm c st l s).xu :=
  .ite (fun _ => h) fun _ => .bump clsAlarm h

theorem XuPlain.foldl {α : Type} {x : Xu} {f : State → α → State}
    (hf : ∀ s a, XuPlain x s.xu → XuPlain x (f s a).xu) (l : List α) {s : State}
    (h : XuPlain x s.xu) : XuPlain x (l.foldl f s).xu := by
  induction l generalizing s with
  | nil => exact h
  | cons a l ih => exact ih (hf s a h)

/-- A request taken: the unit's hand is emptied, then the owner acts. -/
theorem XuPlain.takeRequest {kind : Nat} {f : Slot → Params → State → State} (s : State)
    (hf : ∀ {x : Xu} {s : State} n p, XuPlain x s.xu → XuPlain x (f n p s).xu) :
    XuPlain s.xu (takeRequest kind f s).xu := by
  unfold Machine.takeRequest
  split
  · exact hf _ _ (.hand none .refl)
  · exact .refl

/-! ### Each meaning -/

theorem takeSecondBoundary_xuPlain (s : State) : XuPlain s.xu (takeSecondBoundary s).xu := by
  cases h : s.tsu.due with
  | none => rw [takeSecondBoundary, h]; exact .refl
  | some x =>
    have hc : XuPlain s.xu (parkedCompleted x s).xu := by
      have h0 : XuPlain s.xu (secondBegun x s).xu :=
        XuPlain.refl.of_eq ((secondBegun_frame x s).xu_eq (by decide))
      rw [parkedCompleted, completeAtBoundary_eq]
      have h1 : ∀ {u : State} t l, XuPlain s.xu u.xu → XuPlain s.xu (completeSetTime t l u).xu := by
        intro u t l hu
        unfold completeSetTime
        split
        · exact hu
        · exact hu.complete ..
      have h2 : ∀ {u : State} t l, XuPlain s.xu u.xu → XuPlain s.xu (completeLeap t l u).xu := by
        intro u t l hu
        unfold completeLeap
        split
        · exact hu.complete ..
        · exact hu.complete ..
        · exact hu
      have h3 : ∀ {u : State} t l, XuPlain s.xu u.xu → XuPlain s.xu (completeStep t l u).xu := by
        intro u t l hu
        unfold completeStep
        split
        · exact hu.complete ..
        · exact hu
      exact h3 _ _ (h2 _ _ (h1 _ _ h0))
    have hd : XuPlain s.xu (if pendingValue s.tsu = 0 then boundaryDelivered x s
        else pruneLog (boundaryDelivered x s)).xu := .ite (fun _ => hc) fun _ => hc
    rw [takeSecondBoundary_eq h]
    exact .ite (fun _ => hd.of_eq ((resumePorts_frame _).xu_eq (by decide))) fun _ => hd

theorem advanceRef_xuPlain {x : Xu} {s : State} (r : Ref) (judged : Option Cause)
    (h : XuPlain x s.xu) : XuPlain x (advanceRef r judged s).xu := by
  unfold advanceRef
  dsimp only
  split
  · exact h
  · split
    · exact .ite (fun _ => XuPlain.enterState (by exact h) ..) fun _ => h
    · exact XuPlain.enterState (by exact h) ..
  · split
    · exact h
    · exact .ite (fun _ => XuPlain.enterState (by exact h) ..) fun _ => h
  · exact .ite (fun _ => h) fun _ => .ite (fun _ => XuPlain.enterState (by exact h) ..) fun _ => h

theorem takeArrival_xuPlain (r : Ref) (s : State) : XuPlain s.xu (takeArrival r s).xu := by
  unfold takeArrival
  split
  · exact .refl
  · unfold judgeArrival
    split
    · exact .refl
    · have h : ∀ (u : State) q c, u.xu = s.xu → XuPlain s.xu (advanceRef q c u).xu :=
        fun u q c hu => advanceRef_xuPlain q c (XuPlain.refl.of_eq hu)
      exact .ite (fun _ => h _ _ _ rfl) fun _ => h _ _ _ rfl

theorem takeVerdict_xuPlain (s : State) : XuPlain s.xu (takeVerdict s).xu := by
  unfold takeVerdict
  split
  · exact .refl
  · exact .ite (fun _ => XuPlain.enterState (by exact .refl) ..) fun _ => .refl

theorem takeLineChangeQsu_xuPlain (l : LineId) (level : Bool) (s : State) :
    XuPlain s.xu (takeLineChangeQsu l level s).xu := by
  unfold takeLineChangeQsu
  dsimp only
  split
  · exact .refl
  · split
    · exact .refl
    · exact XuPlain.enterState (by exact .refl) ..

theorem takeWarmUpEnd_xuPlain (s : State) : XuPlain s.xu (takeWarmUpEnd s).xu := by
  unfold takeWarmUpEnd
  dsimp only
  split
  · exact XuPlain.review (by exact .refl) _
  · exact .refl

theorem gateAcquire_xu (e : Int) (s : State) : (gateAcquire e s).xu = s.xu :=
  (gateAcquire_frame e s).xu_eq (by decide)

theorem takeForwarded_xuPlain (s : State) : XuPlain s.xu (takeForwarded s).xu := by
  have hacq : ∀ {u : State} e, XuPlain s.xu u.xu → XuPlain s.xu (measureAcquire e u).xu := by
    intro u e hu
    have hg : XuPlain s.xu (gateAcquire e u).xu := hu.of_eq (gateAcquire_xu e u)
    exact .ite (fun _ => XuPlain.ownStateChange (by exact hg) ..) fun _ => hg
  have htrack : ∀ {u : State} e, XuPlain s.xu u.xu → XuPlain s.xu (measureTrack e u).xu := by
    intro u e hu
    rw [measureTrack_eq]
    have hs : XuPlain s.xu (trackSteered e u).xu :=
      hu.of_eq ((trackSteered_frame e u).xu_eq (by decide))
    exact .ite (fun _ => hu.of_eq ((takeOutlier_frame u).xu_eq (by decide))) fun _ =>
      .ite (fun _ => XuPlain.ownStateChange (by exact hs) ..) fun _ => hs
  have hassist : ∀ {u : State} d n, XuPlain s.xu u.xu → XuPlain s.xu (measureAssisted d n u).xu :=
    fun d n hu => hu.of_eq ((measureAssisted_frame d n _).xu_eq (by decide))
  unfold takeForwarded
  split
  · refine .ite (fun _ => ?_) fun _ => .refl
    unfold takeMeasurement
    split
    · exact hacq _ .refl
    · exact htrack _ .refl
    · exact hassist _ _ .refl
    · exact .refl
    · exact .refl
  · exact .refl

theorem takeLoopStateTsu_xuPlain (s : State) : XuPlain s.xu (takeLoopStateTsu s).xu := by
  unfold takeLoopStateTsu
  split
  · unfold withdrawStep
    split
    · exact .ite (fun _ => .refl) fun _ => .refl
    · exact .ite (fun _ => XuPlain.completeNow (by exact .refl) ..) fun _ => .refl
    · exact .refl
  · exact .refl

theorem bumpPorts_xuPlain {x : Xu} (n : Nat) {s : State} (h : XuPlain x s.xu) :
    XuPlain x (bumpPorts n s).xu := by
  induction n generalizing s with
  | zero => exact h
  | succ n ih => exact ih (.bump clsPort h)

theorem workPort_xuPlain {x : Xu} (v : WorkView) (s : State) (p : Port) (h : XuPlain x s.xu) :
    XuPlain x (workPort v s p).xu := by
  have hc : ∀ {u : State} g l, XuPlain x u.xu → XuPlain x (completeStaging g l u).xu := by
    intro u g l hu
    unfold completeStaging
    split
    · exact XuPlain.complete (by exact hu) ..
    · exact hu
  have h' : XuPlain x (completeStaging s.ptu.ports[p].staged v.bnd.label
      (s.updPort p (workEntry v))).xu := hc _ _ h
  exact .ite (fun _ => h'.of_eq (notifyMeas_xu ..)) fun _ => h'

theorem takeBoundaryWork_xuPlain (s : State) : XuPlain s.xu (takeBoundaryWork s).xu := by
  unfold takeBoundaryWork
  split
  · refine bumpPorts_xuPlain _ (XuPlain.of_eq ?_ (settleSquelched_xu _))
    exact .foldl (workPort_xuPlain _) _ .refl
  · exact .refl

theorem decideSample_xuPlain {x : Xu} {s : State} (a : AuxId) (r : RoundTrip) (m : DelayMeas)
    (h : XuPlain x s.xu) : XuPlain x (decideSample a r m s).xu := by
  refine .ite (fun _ => ?_) fun _ => h
  refine .bump clsPort (XuPlain.complete ?_ ..)
  exact h.of_eq (by simp)

theorem takePeriodNotice_xuPlain (a : AuxId) (s : State) :
    XuPlain s.xu (takePeriodNotice a s).xu := by
  unfold takePeriodNotice
  split
  · exact .refl
  · split
    · unfold takeNotice
      dsimp only
      split
      · exact .refl
      · exact decideSample_xuPlain _ _ _ .refl
    · exact .refl

theorem takeAuxEdge_xuPlain (a : AuxId) (s : State) : XuPlain s.xu (takeAuxEdge a s).xu := by
  unfold takeAuxEdge
  split
  · exact .refl
  · split
    · exact .refl
    · exact .ite (fun _ => .refl) fun _ => decideSample_xuPlain _ _ _ .refl

theorem takeWindowExpiry_xuPlain (a : AuxId) (s : State) :
    XuPlain s.xu (takeWindowExpiry a s).xu := by
  unfold takeWindowExpiry
  split
  · exact .refl
  · split
    · exact .ite (fun _ => decideSample_xuPlain _ _ _ .refl) fun _ => .refl
    · exact .refl

theorem takeInterrupted_xuPlain (a : AuxId) (s : State) :
    XuPlain s.xu (takeInterrupted a s).xu := by
  unfold takeInterrupted
  split
  · exact .refl
  · split
    · exact .bump clsPort (XuPlain.complete (by exact .refl) ..)
    · exact .refl

theorem takeCondition_xuPlain (c : AlarmCode) (s : State) :
    XuPlain s.xu (takeCondition c s).xu := by
  refine .ite (fun _ => .refl) fun _ => ?_
  split
  · exact .refl
  · refine .ite (fun _ => .refl) fun _ => ?_
    dsimp only
    split
    · exact .refl
    · exact XuPlain.changeAlarm (by exact .refl) ..

/-! ### Each request -/

section
variable {x : Xu} {s : State} (n : Slot) (p : Params) (h : XuPlain x s.xu)
include h

theorem takeConfigureReference_xuPlain : XuPlain x (takeConfigureReference n p s).xu := by
  unfold takeConfigureReference
  split
  · exact XuPlain.completeNow (by exact h) ..
  · split
    · exact XuPlain.completeNow (by exact h) ..
    · refine XuPlain.completeNow ?_ ..
      refine XuPlain.review ?_ _
      refine h.of_eq ?_
      rw [State.updRef_xu, setRefState_xu, (configureMeasuring_frame _ _ _).xu_eq (by decide),
        State.updRef_xu]

theorem takeSetPriority_xuPlain : XuPlain x (takeSetPriority n p s).xu := by
  unfold takeSetPriority
  split
  · exact XuPlain.completeNow (by exact XuPlain.review (by exact h) _) ..
  · exact XuPlain.completeNow (by exact h) ..

theorem takeDeclareReference_xuPlain : XuPlain x (takeDeclareReference n p s).xu := by
  unfold takeDeclareReference
  split
  · refine XuPlain.completeNow ?_ ..
    unfold declareRef
    dsimp only
    split
    · exact h
    · split
      · exact h
      · exact XuPlain.enterState (by exact h) ..
  · exact XuPlain.completeNow (by exact h) ..

theorem takeSelectMode_xuPlain : XuPlain x (takeSelectMode n p s).xu := by
  unfold takeSelectMode
  split
  · exact XuPlain.completeNow (by exact XuPlain.review (by exact h) _) ..
  · exact XuPlain.completeNow (by exact h) ..

theorem takeHoldoverControl_xuPlain : XuPlain x (takeHoldoverControl n p s).xu := by
  have hset : ∀ v, XuPlain x (completeNow n .ok (setForcedHoldover v s)).xu := fun v =>
    XuPlain.completeNow (by exact .ite (fun _ => h) fun _ => XuPlain.review (by exact h) _) ..
  exact .ite (fun _ => .ite (fun _ => XuPlain.completeNow (by exact h) ..) fun _ => hset _) fun _ =>
    .ite (fun _ => hset _) fun _ => XuPlain.completeNow (by exact h) ..

theorem takeConfigureLoop_xuPlain : XuPlain x (takeConfigureLoop n p s).xu := by
  unfold takeConfigureLoop
  split
  · exact XuPlain.completeNow (by exact h) ..
  · exact XuPlain.completeNow (h.of_eq ((applyLoopConfig_frame _ s).xu_eq (by decide))) ..

theorem takeConfigureHoldover_xuPlain : XuPlain x (takeConfigureHoldover n p s).xu := by
  unfold takeConfigureHoldover
  split
  · exact XuPlain.completeNow (by exact h) ..
  · exact XuPlain.completeNow (h.of_eq (settleHou_xu ..)) ..

theorem takeClearHistory_xuPlain : XuPlain x (takeClearHistory n p s).xu :=
  XuPlain.completeNow (h.of_eq (settleHou_xu ..)) ..

theorem takeSetTime_xuPlain : XuPlain x (takeSetTime n p s).xu := by
  unfold takeSetTime
  split
  · exact XuPlain.completeNow (by exact h) ..
  · dsimp only
    split
    · exact XuPlain.completeNow (by exact h) ..
    · exact h

theorem takeStepPhase_xuPlain : XuPlain x (takeStepPhase n p s).xu := by
  refine .ite (fun _ => XuPlain.completeNow (by exact h) ..) fun _ => .ite (fun _ => XuPlain.completeNow (by exact h) ..) fun _ => ?_
  dsimp only
  split
  · exact XuPlain.completeNow (by exact h) ..
  · exact h

theorem takeScheduleLeap_xuPlain : XuPlain x (takeScheduleLeap n p s).xu := by
  have hset : ∀ l, XuPlain x (setLeap l (supersedeLeap s)).xu := by
    intro l
    refine XuPlain.of_eq ?_ ((setLeap_frame l _).xu_eq (by decide))
    unfold supersedeLeap
    split
    · exact XuPlain.completeNow (by exact h) ..
    · exact h
  unfold takeScheduleLeap
  split
  · exact XuPlain.completeNow (by exact h) ..
  · exact (hset none).completeNow ..
  · split
    · exact XuPlain.completeNow (by exact h) ..
    · exact .ite (fun _ => XuPlain.completeNow (by exact h) ..) fun _ => hset _

theorem takeConfigurePort_xuPlain : XuPlain x (takeConfigurePort n p s).xu := by
  unfold takeConfigurePort
  split
  · exact XuPlain.completeNow (by exact h) ..
  · split
    · exact XuPlain.completeNow (by exact h) ..
    · refine .ite (fun _ => XuPlain.completeNow (by exact h) ..) fun _ => ?_
      unfold supersedeStaging
      split
      · exact XuPlain.completeNow (by exact h) ..
      · exact h

theorem takeMeasure_xuPlain : XuPlain x (takeMeasure n p s).xu := by
  unfold takeMeasure
  split
  · exact XuPlain.completeNow (by exact h) ..
  · refine .ite (fun _ => XuPlain.completeNow (by exact h) ..) fun _ => .ite (fun _ => XuPlain.completeNow (by exact h) ..) fun _ => ?_
    split
    · exact XuPlain.completeNow (by exact h) ..
    · exact h

theorem takeConfigureAlarm_xuPlain : XuPlain x (takeConfigureAlarm n p s).xu := by
  unfold takeConfigureAlarm
  split
  · exact XuPlain.completeNow (by exact h) ..
  · refine XuPlain.completeNow ?_ ..
    unfold applyAlarmConfig
    dsimp only
    split
    · exact XuPlain.changeAlarm (by exact h) ..
    · split
      · exact XuPlain.changeAlarm (by exact h) ..
      · exact h

end

/-! ### All of them -/

/-- Does the command act on the exchange unit by other means than bumps, completions and the unit's
hand? -/
def actsOnXu (c : Instr) : Bool :=
  isHostWrite c || isHostRead c || isReset c || c == .requestTake || c == .epochReport

theorem exec_xuPlain_of_mem {c : Instr} {s t : State} (h : exec c s = .next t)
    (hc : actsOnXu c = false) (hx : Block.xu ∈ footprint c) : XuPlain s.xu t.xu := by
  cases c <;> simp [footprint] at hx <;>
    simp [actsOnXu, isHostWrite, isHostRead, isReset] at hc <;> cases h
  case secondBoundary => exact takeSecondBoundary_xuPlain s
  case warmUpEnd => exact takeWarmUpEnd_xuPlain s
  case lineOkChangeQsu => exact takeLineChangeQsu_xuPlain ..
  case auxLeadingEdge => exact takeAuxEdge_xuPlain ..
  case measurementArrival => exact takeArrival_xuPlain ..
  case jumpVerdict => exact takeVerdict_xuPlain s
  case forwardedMeasurement => exact takeForwarded_xuPlain s
  case loopStateChangeTsu => exact takeLoopStateTsu_xuPlain s
  case ptuBoundaryWork => exact takeBoundaryWork_xuPlain s
  case periodNotice => exact takePeriodNotice_xuPlain ..
  case windowTimerExpiry => exact takeWindowExpiry_xuPlain ..
  case measurementInterrupted => exact takeInterrupted_xuPlain ..
  case conditionChange => exact takeCondition_xuPlain ..
  case raiseDelayExpiry => exact .ite (fun _ => XuPlain.changeAlarm .refl ..) fun _ => .refl
  case clearDelayExpiry => exact .ite (fun _ => XuPlain.changeAlarm .refl ..) fun _ => .refl
  case configureReference =>
    exact .ite (fun _ => .refl) fun _ => .takeRequest s takeConfigureReference_xuPlain
  case setPriority => exact .takeRequest s takeSetPriority_xuPlain
  case declareReference => exact .takeRequest s takeDeclareReference_xuPlain
  case selectMode => exact .takeRequest s takeSelectMode_xuPlain
  case holdoverControl => exact .takeRequest s takeHoldoverControl_xuPlain
  case configureLoop => exact .takeRequest s takeConfigureLoop_xuPlain
  case configureHoldover =>
    exact .ite (fun _ => .refl) fun _ => .takeRequest s takeConfigureHoldover_xuPlain
  case clearHistory =>
    exact .ite (fun _ => .refl) fun _ => .takeRequest s takeClearHistory_xuPlain
  case setTime => exact .takeRequest s takeSetTime_xuPlain
  case stepPhase => exact .takeRequest s takeStepPhase_xuPlain
  case scheduleLeap => exact .takeRequest s takeScheduleLeap_xuPlain
  case configurePort => exact .takeRequest s takeConfigurePort_xuPlain
  case measurePortDelay => exact .takeRequest s takeMeasure_xuPlain
  case configureAlarm =>
    exact .ite (fun _ => .refl) fun _ => .takeRequest s takeConfigureAlarm_xuPlain

/-- Every other command bumps, completes and empties the unit's hand, and no more. -/
theorem exec_xuPlain {c : Instr} {s t : State} (h : exec c s = .next t) (hc : actsOnXu c = false) :
    XuPlain s.xu t.xu := by
  by_cases hx : Block.xu ∈ footprint c
  · exact exec_xuPlain_of_mem h hc hx
  · exact XuPlain.refl.of_eq ((exec_frame h).xu_eq hx)

/-- Bumps, completions and the unit's hand leave the latch alone. -/
theorem XuPlain.latch {x y : Xu} (h : XuPlain x y) : y.latch = x.latch := by
  induction h with
  | refl => rfl
  | bump _ _ ih => exact ih
  | slot _ _ _ _ _ ih => exact ih
  | hand _ _ ih => exact ih

end Sys2Proof.Machine
end

section
/-! PROOFS. The outputs and the posting queue: every step keeps the interrupt lines and the alarm pins
settled (R155, R174), and the posting queue exact (R169). -/

namespace Sys2Proof.Machine

open Sys2Proof.Safety

/-- What holds of both outcomes holds of a choice between them. -/
theorem ite_cases {α : Sort*} {P : α → Prop} {p : Prop} [Decidable p] {a b : α} (ha : P a)
    (hb : P b) : P (if p then a else b) := by
  split <;> assumption

/-! ### The interrupt lines -/

/-- Both lines stand as the attention classes say (R174). -/
def LinesSettled (x : Xu) : Prop :=
  x.inta = lineWanted x.attn .inta ∧ x.intb = lineWanted x.attn .intb

theorem linesSettled_settleLines (x : Xu) : LinesSettled (settleLines x) := ⟨rfl, rfl⟩

theorem LinesSettled.plain {x y : Xu} (hx : LinesSettled x) (h : XuPlain x y) : LinesSettled y := by
  induction h with
  | refl => exact hx
  | bump => exact linesSettled_settleLines _
  | slot _ _ _ _ _ ih => exact ih
  | hand _ _ ih => exact ih

theorem linesSettled_routeXu {x : Xu} (c : AttnClass) (v : Word) (h : LinesSettled x) :
    LinesSettled (routeXu c v x) := by
  unfold routeXu
  split
  · exact linesSettled_settleLines _
  · exact h

theorem linesSettled_resetXu : LinesSettled resetXu := by
  constructor <;> decide

theorem linesSettled_judgeSlot {s : State} (n : SampleSlot) (h : LinesSettled s.xu) :
    LinesSettled (judgeSlot n s).xu := by
  unfold judgeSlot
  dsimp only
  split
  · exact h
  · exact linesSettled_settleLines _

theorem linesSettled_postSlot {s : State} (n : Slot) (h : LinesSettled s.xu) :
    LinesSettled (postSlot n s).xu := by
  unfold postSlot
  split <;> exact h

theorem linesSettled_freeSlotWrite {s : State} (n : Slot) (h : LinesSettled s.xu) :
    LinesSettled (freeSlotWrite n s).xu := by
  unfold freeSlotWrite
  split <;> exact h

theorem linesSettled_writeSlot {s : State} (n : Slot) (w : Nat) (v : Word)
    (h : LinesSettled s.xu) : LinesSettled (writeSlot n w v s).xu := by
  unfold writeSlot
  split
  · split
    · exact linesSettled_postSlot n h
    · split
      · exact linesSettled_freeSlotWrite n h
      · exact h
  · exact h

theorem exchangeReset_xu (s : State) : (exchangeReset s).xu = { resetXu with pages := s.xu.pages } := by
  simp [exchangeReset, resetPortsExchange, resetBoard, resetHostTime, resetExchangeUnit, setLeap]

theorem linesSettled_exchangeReset (s : State) : LinesSettled (exchangeReset s).xu := by
  rw [exchangeReset_xu]
  exact linesSettled_resetXu

/-- A host write ends with the owner of its word, in an exchange reset, or nowhere (R165). -/
theorem storeWord_cases {P : State → Prop} {s : State} (addr : WordAddr) (v : Word)
    (hattn : ∀ c w, P (writeAttention c w v s)) (hslot : ∀ n w, P (writeSlot n w v s))
    (hsample : ∀ n w, P (writeSample n w v s)) (halarm : ∀ c w, P (writeAlarm c w v s))
    (hreset : P (exchangeReset s)) (hnone : P s) : P (storeWord addr v s) := by
  unfold storeWord
  dsimp only
  split
  · exact hattn _ _
  · split
    · exact hslot _ _
    · split
      · exact hsample _ _
      · split
        · exact halarm _ _
        · exact ite_cases hreset hnone

theorem linesSettled_writeAttention {s : State} (c : AttnClass) (w : Nat) (v : Word)
    (h : LinesSettled s.xu) : LinesSettled (writeAttention c w v s).xu := by
  unfold writeAttention
  split
  · exact linesSettled_settleLines _
  · split
    · exact linesSettled_routeXu _ _ h
    · exact h

theorem linesSettled_writeSample {s : State} (n : SampleSlot) (w : Nat) (v : Word)
    (h : LinesSettled s.xu) : LinesSettled (writeSample n w v s).xu := by
  unfold writeSample
  split
  · split
    · exact linesSettled_judgeSlot _ h
    · exact h
  · exact h

theorem linesSettled_storeWord {s : State} (addr : WordAddr) (v : Word) (h : LinesSettled s.xu) :
    LinesSettled (storeWord addr v s).xu :=
  storeWord_cases (P := fun t : State => LinesSettled t.xu) addr v
    (fun c w => linesSettled_writeAttention c w v h) (fun n w => linesSettled_writeSlot n w v h)
    (fun n w => linesSettled_writeSample n w v h)
    (fun c w => (writeAlarm_frame c w v s).xu_eq (by decide) ▸ h)
    (linesSettled_exchangeReset s) h

theorem linesSettled_hostRead {s : State} (addr : WordAddr) (h : LinesSettled s.xu) :
    LinesSettled (hostRead addr s).xu := by
  unfold hostRead
  split
  · exact h
  · dsimp only
    split
    · exact h
    · split
      · split <;> exact h
      · exact h

theorem linesSettled_takeHead {s : State} (h : LinesSettled s.xu) :
    LinesSettled (takeHead s).xu := by
  unfold takeHead
  split
  · dsimp only
    split
    · exact h
    · refine LinesSettled.plain ?_ (.completeNow .refl ..)
      exact h
  · exact h

theorem linesSettled_takeEpoch {s : State} (h : LinesSettled s.xu) :
    LinesSettled (takeEpoch s).xu := by
  unfold takeEpoch
  split
  · exact linesSettled_settleLines _
  · exact h

/-- Every command leaves the lines settled. -/
theorem exec_linesSettled {c : Instr} {s t : State} (hs : LinesSettled s.xu)
    (h : exec c s = .next t) : LinesSettled t.xu := by
  match hc : actsOnXu c with
  | false => exact hs.plain (exec_xuPlain h hc)
  | true =>
    cases c <;> simp [actsOnXu, isHostWrite, isHostRead, isReset] at hc <;> cases h
    case powerOnReset => exact linesSettled_resetXu
    case lineReset => exact linesSettled_resetXu
    case exchangeReset => exact linesSettled_exchangeReset s
    case hostWrite => exact linesSettled_storeWord _ _ hs
    case readRecordFirstWord => exact linesSettled_hostRead _ hs
    case readLatchedWord => exact linesSettled_hostRead _ hs
    case sampleReady => exact linesSettled_judgeSlot _ hs
    case alarmAck => exact hs
    case epochReport => exact linesSettled_takeEpoch hs
    case requestPosted => exact linesSettled_postSlot _ hs
    case requestSlotFree => exact linesSettled_freeSlotWrite _ hs
    case requestTake => exact linesSettled_takeHead hs
    case attentionAck => exact linesSettled_settleLines _
    case attentionRoute => exact linesSettled_routeXu _ _ hs

/-! ### The alarm pins -/

/-- The three pins stand as the alarm entries say (R155). -/
def PinsOk (a : Alu) : Prop :=
  a.critPin = pinWanted a.entries .critical ∧ a.majPin = pinWanted a.entries .major
  ∧ a.minPin = pinWanted a.entries .minor

theorem pinsOk_settlePins (a : Alu) : PinsOk (settlePins a) := ⟨rfl, rfl, rfl⟩

/-- The pins read mask, state and severity of the entries alone. -/
theorem pinWanted_congr {v w : Vector AlarmEntry 19}
    (h : ∀ c : AlarmCode, drivesPin w[c] = drivesPin v[c] ∧ w[c].severity = v[c].severity)
    (x : Severity) : pinWanted w x = pinWanted v x := by
  simp only [pinWanted]
  congr 1
  funext c
  rw [(h c).1, (h c).2]

theorem PinsOk.entries {a : Alu} (ha : PinsOk a) {v : Vector AlarmEntry 19}
    (h : ∀ c : AlarmCode,
      drivesPin v[c] = drivesPin a.entries[c] ∧ v[c].severity = a.entries[c].severity) :
    PinsOk { a with entries := v } := by
  obtain ⟨h1, h2, h3⟩ := ha
  exact ⟨h1.trans (pinWanted_congr h _).symm, h2.trans (pinWanted_congr h _).symm,
    h3.trans (pinWanted_congr h _).symm⟩

theorem PinsOk.updAlarm {s : State} (hs : PinsOk s.alu) (c : AlarmCode)
    {f : AlarmEntry → AlarmEntry}
    (hf : ∀ e, drivesPin (f e) = drivesPin e ∧ (f e).severity = e.severity) :
    PinsOk (s.updAlarm c f).alu := by
  refine hs.entries fun d => ?_
  rw [updAt_get]
  split
  · rename_i h; subst h; exact hf _
  · exact ⟨rfl, rfl⟩

theorem pinsOk_changeAlarm (c : AlarmCode) (st : AlarmState) (l : Label) (s : State) :
    PinsOk (changeAlarm c st l s).alu := by
  unfold changeAlarm
  dsimp only
  split <;> exact pinsOk_settlePins _

theorem pinsOk_acceptCondition {s : State} (hs : PinsOk s.alu) (c : AlarmCode) (present : Bool) :
    PinsOk (acceptCondition c present s).alu := by
  unfold acceptCondition
  split
  · exact hs
  · dsimp only
    split
    · exact hs.updAlarm c fun _ => ⟨rfl, rfl⟩
    · exact pinsOk_changeAlarm ..

theorem pinsOk_takeCondition {s : State} (hs : PinsOk s.alu) (c : AlarmCode) :
    PinsOk (takeCondition c s).alu := by
  unfold takeCondition
  split
  · exact hs
  · split
    · exact hs
    · exact pinsOk_acceptCondition (by exact hs) c _

theorem drivesPin_countAlarm (e : AlarmEntry) :
    drivesPin (countAlarm e) = drivesPin e ∧ (countAlarm e).severity = e.severity := by
  unfold countAlarm
  split <;> exact ⟨rfl, rfl⟩

theorem pinsOk_takeAluBoundary {s : State} (hs : PinsOk s.alu) :
    PinsOk (takeAluBoundary s).alu := by
  unfold takeAluBoundary
  split
  · exact hs
  · split
    · exact hs
    · refine hs.entries fun c => ?_
      simpa using drivesPin_countAlarm _

theorem pinsOk_applyAlarmConfig (m : AlarmParams) (s : State) :
    PinsOk (applyAlarmConfig m s).alu := by
  unfold applyAlarmConfig
  dsimp only
  split
  · exact pinsOk_changeAlarm ..
  · split
    · exact pinsOk_changeAlarm ..
    · exact pinsOk_settlePins _

theorem pinsOk_takeConfigureAlarm {s : State} (hs : PinsOk s.alu) (n : Slot) (p : Params) :
    PinsOk (takeConfigureAlarm n p s).alu := by
  unfold takeConfigureAlarm
  split
  · rw [completeNow_alu]; exact hs
  · rw [completeNow_alu]; exact pinsOk_applyAlarmConfig ..

/-- What a request does to a block, told by what its owner does. -/
theorem takeRequest_cases {P : State → Prop} {kind : Nat} {f : Slot → Params → State → State}
    {s : State} (hnone : P s) (hf : ∀ n p, P (f n p (s.setXu { s.xu with unit := none }))) :
    P (takeRequest kind f s) := by
  unfold takeRequest
  split
  · exact hf _ _
  · exact hnone

theorem pinsOk_writeAlarm {s : State} (hs : PinsOk s.alu) (c : AlarmCode) (w : Nat) (v : Word) :
    PinsOk (writeAlarm c w v s).alu :=
  ite_cases (P := fun t : State => PinsOk t.alu) (hs.updAlarm c fun _ => ⟨rfl, rfl⟩) hs

theorem pinsOk_storeWord {s : State} (hs : PinsOk s.alu) (addr : WordAddr) (v : Word) :
    PinsOk (storeWord addr v s).alu :=
  storeWord_cases (P := fun t : State => PinsOk t.alu) addr v
    (fun c w => (writeAttention_frame c w v s).alu_eq (by decide) ▸ hs)
    (fun n w => (writeSlot_frame n w v s).alu_eq (by decide) ▸ hs)
    (fun n w => (writeSample_frame n w v s).alu_eq (by decide) ▸ hs)
    (fun c w => pinsOk_writeAlarm hs c w v)
    ((exchangeReset_frame s).alu_eq (by decide) ▸ hs) hs

theorem pinsOk_resetAlu : PinsOk resetAlu := by
  refine ⟨?_, ?_, ?_⟩ <;> decide

theorem exec_pinsOk_of_mem {c : Instr} {s t : State} (hs : PinsOk s.alu) (h : exec c s = .next t)
    (ha : Block.alu ∈ footprint c) : PinsOk t.alu := by
  cases c <;> simp [footprint] at ha <;> cases h
  case powerOnReset => exact pinsOk_resetAlu
  case lineReset => exact pinsOk_resetAlu
  case hostWrite => exact pinsOk_storeWord (by exact hs) _ _
  case conditionChange => exact pinsOk_takeCondition hs _
  case aluBoundary => exact pinsOk_takeAluBoundary hs
  case raiseDelayExpiry =>
    exact ite_cases (P := fun t : State => PinsOk t.alu) (pinsOk_changeAlarm ..) hs
  case clearDelayExpiry =>
    exact ite_cases (P := fun t : State => PinsOk t.alu) (pinsOk_changeAlarm ..) hs
  case alarmAck => exact PinsOk.updAlarm (by exact hs) _ fun _ => ⟨rfl, rfl⟩
  case configureAlarm =>
    exact ite_cases (P := fun t : State => PinsOk t.alu) hs
      (takeRequest_cases (P := fun t : State => PinsOk t.alu) hs fun _ _ =>
        pinsOk_takeConfigureAlarm (by exact hs) ..)

/-- Every command leaves the pins settled. -/
theorem exec_pinsOk {c : Instr} {s t : State} (hs : PinsOk s.alu) (h : exec c s = .next t) :
    PinsOk t.alu := by
  by_cases ha : Block.alu ∈ footprint c
  · exact exec_pinsOk_of_mem hs h ha
  · exact (exec_frame h).alu_eq ha ▸ hs

/-! ### The outputs -/

theorem bool_iff_of_eq {a b : Bool} {p : Prop} (h : b = true ↔ p) : (a = true ↔ p) ↔ a = b := by
  rw [← h, Bool.coe_iff_coe]

/-- The law of the outputs, told by the settling of the lines and the pins. -/
theorem outputsSettled_iff (s : State) : OutputsSettled s ↔ LinesSettled s.xu ∧ PinsOk s.alu := by
  have hl : ∀ (b : Bool) r, (b = true ↔ LineSource r s) ↔ b = lineWanted s.xu.attn r := fun b r =>
    bool_iff_of_eq (lineWanted_iff s.xu.attn r)
  have hp : ∀ (b : Bool) v, (b = true ↔ PinSource v s) ↔ b = pinWanted s.alu.entries v := fun b v =>
    bool_iff_of_eq (pinWanted_iff s.alu.entries v)
  simp only [OutputsSettled, PinsSettled, LinesSettled, PinsOk, hl, hp, and_assoc]

/-- Settles O3: every command settles the lines with the classes it touches, and the pins with the
entries. -/
theorem stepKeepsOutputsSettled : Obligations.StepKeepsOutputsSettled := by
  refine step_keeps (fun _ _ h => h) fun c s t hs h => ?_
  rw [outputsSettled_iff] at hs ⊢
  exact ⟨exec_linesSettled hs.1 h, exec_pinsOk hs.2 h⟩

/-! ### The posting queue (R168, R169) -/

/-- The posting queue of an exchange unit holds each POSTED slot exactly once and no other. -/
def QueueExact (x : Xu) : Prop :=
  x.queue.Nodup ∧ ∀ n : Slot, n ∈ x.queue ↔ x.slots[n].state = .posted

/-- A slot that is not POSTED and does not become it leaves the queue exact. -/
theorem QueueExact.updSlot {x : Xu} (hx : QueueExact x) (n : Slot) {f : RequestSlot → RequestSlot}
    (hf : (f x.slots[n]).state = .posted ↔ x.slots[n].state = .posted) :
    QueueExact { x with slots := updAt x.slots n f } := by
  refine ⟨hx.1, fun m => ?_⟩
  rw [hx.2 m, updAt_get]
  split
  · rename_i h; subst h; exact hf.symm
  · rfl

theorem QueueExact.plain {x y : Xu} (hx : QueueExact x) (h : XuPlain x y) : QueueExact y := by
  induction h with
  | refl => exact hx
  | bump _ _ ih => exact ih
  | slot n f hn hf _ ih => exact ih.updSlot n (by rw [hn, hf]; decide)
  | hand _ _ ih => exact ih

/-- A FREE slot posted joins the queue's tail. -/
theorem queueExact_postSlot {s : State} (n : Slot) (h : QueueExact s.xu) :
    QueueExact (postSlot n s).xu := by
  unfold postSlot
  split
  · rename_i hfree
    have hn : n ∉ s.xu.queue := by rw [h.2 n, hfree]; decide
    refine ⟨List.nodup_append.mpr ⟨h.1, by simp, fun a ha b hb => by
        rw [List.mem_singleton.mp hb]; exact fun hc => hn (hc ▸ ha)⟩,
      fun m => ?_⟩
    simp only [State.setXu_xu, State.updSlot, List.mem_append, List.mem_singleton, h.2 m, updAt_get]
    by_cases hm : n = m
    · simp [hm]
    · simp [hm, Ne.symm hm]
  · exact h

theorem queueExact_freeSlotWrite {s : State} (n : Slot) (h : QueueExact s.xu) :
    QueueExact (freeSlotWrite n s).xu := by
  unfold freeSlotWrite
  split
  · rename_i hn; exact h.updSlot n (by rw [hn]; simp)
  · exact h

theorem writeSlotWord_state (w : Nat) (v : Word) (q : RequestSlot) :
    (writeSlotWord w v q).state = q.state := by
  unfold writeSlotWord
  split
  · split
    · rfl
    · split
      · rfl
      · split <;> rfl
  · rfl

theorem queueExact_writeSlot {s : State} (n : Slot) (w : Nat) (v : Word)
    (h : QueueExact s.xu) : QueueExact (writeSlot n w v s).xu := by
  unfold writeSlot
  split
  · split
    · exact queueExact_postSlot n h
    · split
      · exact queueExact_freeSlotWrite n h
      · exact h
  · exact h.updSlot n (by rw [writeSlotWord_state])

theorem queueExact_writeAttention {s : State} (c : AttnClass) (w : Nat) (v : Word)
    (h : QueueExact s.xu) : QueueExact (writeAttention c w v s).xu := by
  unfold writeAttention
  split
  · exact h
  · split
    · rw [State.setXu_xu, routeXu_frame]; exact h
    · exact h

theorem queueExact_judgeSlot {s : State} (n : SampleSlot) (h : QueueExact s.xu) :
    QueueExact (judgeSlot n s).xu := by
  unfold judgeSlot
  dsimp only
  split
  · exact h
  · split <;> exact h

theorem queueExact_writeSample {s : State} (n : SampleSlot) (w : Nat) (v : Word)
    (h : QueueExact s.xu) : QueueExact (writeSample n w v s).xu := by
  unfold writeSample
  split
  · split
    · exact queueExact_judgeSlot _ h
    · exact h
  · exact h

theorem queueExact_resetXu : QueueExact resetXu := by
  refine ⟨List.nodup_nil, fun n => ?_⟩
  simp [resetXu, freeSlot]

theorem queueExact_exchangeReset (s : State) : QueueExact (exchangeReset s).xu := by
  rw [exchangeReset_xu]
  exact queueExact_resetXu

theorem queueExact_storeWord {s : State} (addr : WordAddr) (v : Word) (h : QueueExact s.xu) :
    QueueExact (storeWord addr v s).xu :=
  storeWord_cases (P := fun t : State => QueueExact t.xu) addr v
    (fun c w => queueExact_writeAttention c w v h) (fun n w => queueExact_writeSlot n w v h)
    (fun n w => queueExact_writeSample n w v h)
    (fun c w => (writeAlarm_frame c w v s).xu_eq (by decide) ▸ h)
    (queueExact_exchangeReset s) h

theorem queueExact_hostRead {s : State} (addr : WordAddr) (h : QueueExact s.xu) :
    QueueExact (hostRead addr s).xu := by
  unfold hostRead
  split
  · exact h
  · dsimp only
    split
    · exact h
    · split
      · split <;> exact h
      · exact h

/-- The head of the queue taken: the slot is TAKEN and leaves the queue. -/
theorem queueExact_takeHead {s : State} (h : QueueExact s.xu) : QueueExact (takeHead s).xu := by
  unfold takeHead
  split
  · rename_i n rest _ hq
    obtain ⟨hnd, hmem⟩ := h
    rw [hq, List.nodup_cons] at hnd
    have hx : QueueExact { s.xu with
        queue := rest, slots := updAt s.xu.slots n fun q => { q with state := .taken } } := by
      refine ⟨hnd.2, fun m => ?_⟩
      have hm := hmem m
      rw [hq, List.mem_cons] at hm
      simp only [updAt_get]
      split
      · rename_i hnm; subst hnm; simp [hnd.1]
      · rename_i hnm; rw [← hm]; simp [Ne.symm hnm]
    dsimp only
    split
    · exact hx
    · refine QueueExact.plain ?_ (.completeNow .refl ..)
      exact hx
  · exact h

theorem queueExact_takeEpoch {s : State} (h : QueueExact s.xu) : QueueExact (takeEpoch s).xu := by
  unfold takeEpoch
  split <;> exact h

theorem exec_queueExact_of_acts {c : Instr} {s t : State} (hs : QueueExact s.xu)
    (h : exec c s = .next t) (hc : actsOnXu c = true) : QueueExact t.xu := by
  cases c <;> simp [actsOnXu, isHostWrite, isHostRead, isReset] at hc <;> cases h
  case powerOnReset => exact queueExact_resetXu
  case lineReset => exact queueExact_resetXu
  case exchangeReset => exact queueExact_exchangeReset s
  case hostWrite => exact queueExact_storeWord _ _ hs
  case readRecordFirstWord => exact queueExact_hostRead _ hs
  case readLatchedWord => exact queueExact_hostRead _ hs
  case sampleReady => exact queueExact_judgeSlot _ hs
  case alarmAck => exact hs
  case epochReport => exact queueExact_takeEpoch hs
  case requestPosted => exact queueExact_postSlot _ hs
  case requestSlotFree => exact queueExact_freeSlotWrite _ hs
  case requestTake => exact queueExact_takeHead hs
  case attentionAck => exact hs
  case attentionRoute => exact queueExact_writeAttention _ 3 _ hs

/-- Every command leaves the posting queue exact. -/
theorem exec_queueExact {c : Instr} {s t : State} (hs : QueueExact s.xu)
    (h : exec c s = .next t) : QueueExact t.xu := by
  match hc : actsOnXu c with
  | false => exact hs.plain (exec_xuPlain h hc)
  | true => exact exec_queueExact_of_acts hs h hc

/-! ### The packet unit's board and windows (R41, R44) -/

/-- Every sample slot is EMPTY and every window holds at most 16 samples. -/
def PkuBounded (p : Pku) : Prop :=
  (∀ n : SampleSlot, p.board[n].state = .empty) ∧ ∀ k : PacketId, p.refs[k].window.length ≤ 16

theorem PkuBounded.updBoard {p : Pku} (h : PkuBounded p) (n : SampleSlot) {f : Sample → Sample}
    (hf : (f p.board[n]).state = .empty) : PkuBounded { p with board := updAt p.board n f } := by
  refine ⟨fun m => ?_, h.2⟩
  rw [updAt_get]
  split
  · exact hf
  · exact h.1 m

theorem PkuBounded.updRefs {p : Pku} (h : PkuBounded p) (k : PacketId) {f : PacketRef → PacketRef}
    (hf : (f p.refs[k]).window.length ≤ 16) : PkuBounded { p with refs := updAt p.refs k f } := by
  refine ⟨h.1, fun m => ?_⟩
  simp only [updAt_get]
  split
  · exact hf
  · exact h.2 m

/-- A full window loses its oldest entry before it takes another (R44). -/
theorem acceptInto_length_le (w : List WindowEntry) (e : WindowEntry) :
    (acceptInto w e).length ≤ 16 := by
  simp [acceptInto, Config.windowSize]
  omega

theorem countSample_window_le {p : PacketRef} (v : Verdict) (e : WindowEntry)
    (h : p.window.length ≤ 16) : (countSample v e p).window.length ≤ 16 := by
  unfold countSample
  split
  · exact acceptInto_length_le _ _
  · exact h

theorem pkuBounded_judgeSlot {s : State} (n : SampleSlot) (h : PkuBounded s.pku) :
    PkuBounded (judgeSlot n s).pku := by
  unfold judgeSlot
  dsimp only
  split
  · exact h
  · have hb : ∀ q : Sample, q.state = .empty →
        PkuBounded { s.pku with board := s.pku.board.set n q } := fun q hq =>
      h.updBoard n (f := fun _ => q) hq
    split
    · exact hb _ rfl
    · exact (hb _ rfl).updRefs _ (countSample_window_le _ _ (h.2 _))

theorem writeSampleWord_state (w : Nat) (v : Word) (q : Sample) :
    (writeSampleWord w v q).state = q.state := by
  unfold writeSampleWord
  split
  · rfl
  · split
    · rfl
    · split <;> rfl

theorem pkuBounded_writeSample {s : State} (n : SampleSlot) (w : Nat) (v : Word)
    (h : PkuBounded s.pku) : PkuBounded (writeSample n w v s).pku := by
  unfold writeSample
  split
  · split
    · exact pkuBounded_judgeSlot _ h
    · exact h
  · exact h.updBoard n (by rw [writeSampleWord_state]; exact h.1 n)

theorem pkuBounded_exchangeReset {s : State} (h : PkuBounded s.pku) :
    PkuBounded (exchangeReset s).pku := by
  have hp : (exchangeReset s).pku = { s.pku with board := Vector.replicate 32 emptySample } := by
    simp [exchangeReset, resetPortsExchange, resetBoard, resetHostTime, resetExchangeUnit, setLeap]
  rw [hp]
  exact ⟨fun n => by simp [emptySample], h.2⟩

theorem pkuBounded_storeWord {s : State} (addr : WordAddr) (v : Word) (h : PkuBounded s.pku) :
    PkuBounded (storeWord addr v s).pku :=
  storeWord_cases (P := fun t : State => PkuBounded t.pku) addr v
    (fun c w => (writeAttention_frame c w v s).pku_eq (by decide) ▸ h)
    (fun n w => (writeSlot_frame n w v s).pku_eq (by decide) ▸ h)
    (fun n w => pkuBounded_writeSample n w v h)
    (fun c w => (writeAlarm_frame c w v s).pku_eq (by decide) ▸ h)
    (pkuBounded_exchangeReset h) h

theorem markChosen_length (c : Option (Nat × WindowEntry)) (w : List WindowEntry) :
    (markChosen c w).length = w.length := by
  unfold markChosen
  split <;> simp

theorem markSpan_length (o : Label) (span : Nat) (w : List WindowEntry) :
    (markSpan o span w).length = w.length := by simp [markSpan]

theorem pkuBounded_evaluatePacket {s : State} (b : Boundary) (k : PacketId)
    (h : PkuBounded s.pku) : PkuBounded (evaluatePacket b s k).pku := by
  unfold evaluatePacket
  dsimp only
  split
  · refine h.updRefs k ?_
    rw [turnCounts, markChosen_length, markSpan_length]
    exact h.2 k
  · exact h.updRefs k (h.2 k)

theorem pkuBounded_settleMark {p : Pku} (b : Boundary) (h : PkuBounded p) :
    PkuBounded (settleMark b p) := by
  unfold settleMark
  split
  · exact ⟨h.1, fun k => by simp⟩
  · split <;> exact h

theorem pkuBounded_takePacketEvaluation {s : State} (h : PkuBounded s.pku) :
    PkuBounded (takePacketEvaluation s).pku := by
  unfold takePacketEvaluation
  split
  · exact h
  · rename_i b rest _
    refine pkuBounded_settleMark b ?_
    have key : ∀ (l : List PacketId) (u : State), PkuBounded u.pku →
        PkuBounded (l.foldl (evaluatePacket b) u).pku := by
      intro l
      induction l with
      | nil => exact fun u hu => hu
      | cons k l ih => exact fun u hu => ih _ (pkuBounded_evaluatePacket b k hu)
    exact key _ _ h

theorem pkuBounded_applyRefConfig {s : State} (r : Ref) (cfg : RefConfig) (h : PkuBounded s.pku) :
    PkuBounded (applyRefConfig r cfg s).pku := by
  simp only [applyRefConfig, review_pku, State.updRef_pku, setRefState_pku]
  unfold configureMeasuring
  split
  · exact h
  · split
    · exact h
    · exact PkuBounded.updRefs (by exact h) _ (Nat.zero_le _)

theorem pkuBounded_takeConfigureReference {s : State} (n : Slot) (p : Params)
    (h : PkuBounded s.pku) : PkuBounded (takeConfigureReference n p s).pku := by
  unfold takeConfigureReference
  split
  · rw [completeNow_pku]; exact h
  · split
    · rw [completeNow_pku]; exact h
    · rw [completeNow_pku]; exact pkuBounded_applyRefConfig _ _ h

theorem pkuBounded_resetPku : PkuBounded resetPku := by
  constructor <;> simp [resetPku, emptySample, resetPacketRef]

theorem exec_pkuBounded_of_mem {c : Instr} {s t : State} (hs : PkuBounded s.pku)
    (h : exec c s = .next t) (hp : Block.pku ∈ footprint c) : PkuBounded t.pku := by
  cases c <;> simp [footprint] at hp <;> cases h
  case powerOnReset => exact pkuBounded_resetPku
  case lineReset => exact pkuBounded_resetPku
  case exchangeReset => exact pkuBounded_exchangeReset hs
  case hostWrite => exact pkuBounded_storeWord _ _ (by exact hs)
  case sampleReady => exact pkuBounded_judgeSlot _ (by exact hs)
  case packetEvaluation => exact pkuBounded_takePacketEvaluation hs
  case configureReference =>
    exact ite_cases (P := fun t : State => PkuBounded t.pku) hs
      (takeRequest_cases (P := fun t : State => PkuBounded t.pku) hs fun _ _ =>
        pkuBounded_takeConfigureReference _ _ (by exact hs))

/-- Every command leaves the board empty and the windows bounded. -/
theorem exec_pkuBounded {c : Instr} {s t : State} (hs : PkuBounded s.pku)
    (h : exec c s = .next t) : PkuBounded t.pku := by
  by_cases hp : Block.pku ∈ footprint c
  · exact exec_pkuBounded_of_mem hs h hp
  · exact (exec_frame h).pku_eq hp ▸ hs

/-- Settles O4: the queue by what posting, freeing, taking and completing do to slots and queue; the
board and windows by the commands of the packet unit. -/
theorem stepKeepsPostingQueue : Obligations.StepKeepsPostingQueue :=
  ⟨step_keeps (fun _ _ h => h) fun _ _ _ hs h => exec_queueExact hs h,
    step_keeps (fun _ _ h => h) fun _ _ _ hs h => exec_pkuBounded hs h⟩

end Sys2Proof.Machine
end

section
/-! PROOFS. The alarm entries: every step keeps condition, state, count and acknowledged flag of each in
agreement (R151 to R154, R157). -/

namespace Sys2Proof.Machine

open Sys2Proof.Safety

/-- Condition, state, count and acknowledged flag of an entry agree. -/
def EntryAgrees (e : AlarmEntry) : Prop :=
  (e.condition = true ↔ e.state = .raising ∨ e.state = .raised)
  ∧ (e.acked = true → e.state = .raised ∨ e.state = .clearing)
  ∧ (e.state = .clear ∨ e.state = .raised → e.count = 0)

/-- Every entry of the unit agrees. -/
def AluAgrees (a : Alu) : Prop := ∀ c : AlarmCode, EntryAgrees a.entries[c]

theorem AluAgrees.set {a b : Alu} (h : AluAgrees a) (c : AlarmCode) {f : AlarmEntry → AlarmEntry}
    (hb : b.entries = updAt a.entries c f) (hf : EntryAgrees (f a.entries[c])) : AluAgrees b := by
  intro d
  rw [hb, updAt_get]
  split
  · exact hf
  · exact h d

theorem AluAgrees.updAlarm {s : State} (h : AluAgrees s.alu) (c : AlarmCode)
    {f : AlarmEntry → AlarmEntry} (hf : EntryAgrees (f s.alu.entries[c])) :
    AluAgrees (s.updAlarm c f).alu := h.set c rfl hf

theorem AluAgrees.changeAlarm {s : State} (h : AluAgrees s.alu) (c : AlarmCode) (st : AlarmState)
    (l : Label) (hf : EntryAgrees (enterAlarm st l s.alu.entries[c])) :
    AluAgrees (changeAlarm c st l s).alu := h.set c (changeAlarm_entries ..) hf

/-- A state may be entered where it fits the condition and keeps no acknowledgement it should drop. -/
theorem entryAgrees_enterAlarm {st : AlarmState} {l : Label} {e : AlarmEntry}
    (hc : e.condition = true ↔ st = .raising ∨ st = .raised)
    (ha : st = .raising → e.acked = false) : EntryAgrees (enterAlarm st l e) := by
  refine ⟨hc, ?_, fun _ => rfl⟩
  cases st <;> simp_all [enterAlarm]

/-- The entry after a change of its condition, in the state that the change gives (R151 to R153). -/
theorem entryAgrees_stateByCondition {e : AlarmEntry} {present : Bool} (l : Label)
    (he : EntryAgrees e) (hne : e.condition ≠ present) :
    ∃ st, stateByCondition { e with condition := present } present = some st
      ∧ EntryAgrees (enterAlarm st l { e with condition := present }) := by
  obtain ⟨hcond, hack, -⟩ := he
  unfold stateByCondition
  cases hs : e.state <;> cases present <;> simp_all
  · split
    · exact entryAgrees_enterAlarm (by simp) (by simp)
    · exact entryAgrees_enterAlarm (by simp) (fun _ => rfl)
  · exact entryAgrees_enterAlarm (by simp) (by simp)
  · split
    · exact entryAgrees_enterAlarm (by simp) (by simp)
    · exact entryAgrees_enterAlarm (by simp) (by simp)
  · exact entryAgrees_enterAlarm (by simp) (by simp)

theorem aluAgrees_acceptCondition {s : State} (h : AluAgrees s.alu) (c : AlarmCode)
    (present : Bool) : AluAgrees (acceptCondition c present s).alu := by
  unfold acceptCondition
  split
  · exact h
  · rename_i hne
    obtain ⟨st, hst, hagree⟩ := entryAgrees_stateByCondition s.tsu.label (h c) hne
    have hself : (s.updAlarm c fun e => { e with condition := present }).alu.entries[c]
        = { s.alu.entries[c] with condition := present } := updAt_self _ _ _
    dsimp only
    rw [hself, hst]
    refine h.set c (f := fun e => enterAlarm st s.tsu.label { e with condition := present }) ?_ hagree
    simp only [changeAlarm_entries, State.updAlarm_tsu]
    simp [State.updAlarm, updAt]

theorem aluAgrees_takeCondition {s : State} (h : AluAgrees s.alu) (c : AlarmCode) :
    AluAgrees (takeCondition c s).alu := by
  unfold takeCondition
  split
  · exact h
  · split
    · exact h
    · exact aluAgrees_acceptCondition (by exact h) c _

theorem entryAgrees_countAlarm {e : AlarmEntry} (h : EntryAgrees e) :
    EntryAgrees (countAlarm e) := by
  unfold countAlarm
  split
  · rename_i hs
    refine ⟨h.1, h.2.1, fun hc => ?_⟩
    dsimp only at hc
    rcases hs with hs | hs <;> simp [hs] at hc
  · exact h

theorem aluAgrees_takeAluBoundary {s : State} (h : AluAgrees s.alu) :
    AluAgrees (takeAluBoundary s).alu := by
  unfold takeAluBoundary
  split
  · exact h
  · split
    · exact h
    · intro c
      simpa using entryAgrees_countAlarm (h c)

/-- An expiry of the raise delay fits the condition of a RAISING entry. -/
theorem entryAgrees_raise {e : AlarmEntry} (l : Label) (h : EntryAgrees e) (hd : raiseDue e = true) :
    EntryAgrees (enterAlarm .raised l e) := by
  have hs : e.state = .raising := by simp [raiseDue] at hd; exact hd.1
  exact entryAgrees_enterAlarm (by simp [h.1, hs]) (by simp)

/-- An expiry of the clear delay fits the condition of a CLEARING entry. -/
theorem entryAgrees_clear {e : AlarmEntry} (l : Label) (h : EntryAgrees e) (hd : clearDue e = true) :
    EntryAgrees (enterAlarm .clear l e) := by
  have hs : e.state = .clearing := by simp [clearDue] at hd; exact hd.1
  exact entryAgrees_enterAlarm (by simp [h.1, hs]) (by simp)

theorem aluAgrees_takeRaiseExpiry {s : State} (h : AluAgrees s.alu) (c : AlarmCode) :
    AluAgrees (takeRaiseExpiry c s).alu := by
  unfold takeRaiseExpiry
  split
  · rename_i hd; exact h.changeAlarm c _ _ (entryAgrees_raise _ (h c) hd)
  · exact h

theorem aluAgrees_takeClearExpiry {s : State} (h : AluAgrees s.alu) (c : AlarmCode) :
    AluAgrees (takeClearExpiry c s).alu := by
  unfold takeClearExpiry
  split
  · rename_i hd; exact h.changeAlarm c _ _ (entryAgrees_clear _ (h c) hd)
  · exact h

theorem entryAgrees_ackAlarm {e : AlarmEntry} (v : Word) (h : EntryAgrees e) :
    EntryAgrees (ackAlarm v e) := by
  refine ⟨h.1, fun ha => ?_, h.2.2⟩
  simp only [ackAlarm, Bool.or_eq_true, Bool.and_eq_true, beq_iff_eq] at ha
  exact ha.elim h.2.1 (·.2)

theorem aluAgrees_applyAlarmConfig {s : State} (h : AluAgrees s.alu) (m : AlarmParams) :
    AluAgrees (applyAlarmConfig m s).alu := by
  have h' : AluAgrees (s.updAlarm m.code (configureEntry m)).alu := h.updAlarm _ (by exact h _)
  unfold applyAlarmConfig
  dsimp only
  split
  · rename_i hd; exact AluAgrees.changeAlarm h' _ _ _ (entryAgrees_raise _ (h' m.code) hd)
  · split
    · rename_i hd; exact AluAgrees.changeAlarm h' _ _ _ (entryAgrees_clear _ (h' m.code) hd)
    · exact h'

theorem aluAgrees_takeConfigureAlarm {s : State} (h : AluAgrees s.alu) (n : Slot) (p : Params) :
    AluAgrees (takeConfigureAlarm n p s).alu := by
  unfold takeConfigureAlarm
  split
  · rw [completeNow_alu]; exact h
  · rw [completeNow_alu]; exact aluAgrees_applyAlarmConfig h _

theorem aluAgrees_writeAlarm {s : State} (h : AluAgrees s.alu) (c : AlarmCode) (w : Nat) (v : Word) :
    AluAgrees (writeAlarm c w v s).alu :=
  ite_cases (P := fun t : State => AluAgrees t.alu)
    (h.updAlarm c (entryAgrees_ackAlarm v (h c))) h

theorem aluAgrees_storeWord {s : State} (h : AluAgrees s.alu) (addr : WordAddr) (v : Word) :
    AluAgrees (storeWord addr v s).alu :=
  storeWord_cases (P := fun t : State => AluAgrees t.alu) addr v
    (fun c w => (writeAttention_frame c w v s).alu_eq (by decide) ▸ h)
    (fun n w => (writeSlot_frame n w v s).alu_eq (by decide) ▸ h)
    (fun n w => (writeSample_frame n w v s).alu_eq (by decide) ▸ h)
    (fun c w => aluAgrees_writeAlarm h c w v)
    ((exchangeReset_frame s).alu_eq (by decide) ▸ h) h

theorem aluAgrees_resetAlu : AluAgrees resetAlu := by
  intro c
  simp [resetAlu, resetAlarm, EntryAgrees]

theorem exec_aluAgrees_of_mem {c : Instr} {s t : State} (hs : AluAgrees s.alu)
    (h : exec c s = .next t) (ha : Block.alu ∈ footprint c) : AluAgrees t.alu := by
  cases c <;> simp [footprint] at ha <;> cases h
  case powerOnReset => exact aluAgrees_resetAlu
  case lineReset => exact aluAgrees_resetAlu
  case hostWrite => exact aluAgrees_storeWord (by exact hs) _ _
  case conditionChange => exact aluAgrees_takeCondition hs _
  case aluBoundary => exact aluAgrees_takeAluBoundary hs
  case raiseDelayExpiry => exact aluAgrees_takeRaiseExpiry hs _
  case clearDelayExpiry => exact aluAgrees_takeClearExpiry hs _
  case alarmAck => exact AluAgrees.updAlarm (by exact hs) _ (entryAgrees_ackAlarm _ (hs _))
  case configureAlarm =>
    exact ite_cases (P := fun t : State => AluAgrees t.alu) hs
      (takeRequest_cases (P := fun t : State => AluAgrees t.alu) hs fun _ _ =>
        aluAgrees_takeConfigureAlarm (by exact hs) _ _)

/-- Every command leaves the alarm entries in agreement. -/
theorem exec_aluAgrees {c : Instr} {s t : State} (hs : AluAgrees s.alu) (h : exec c s = .next t) :
    AluAgrees t.alu := by
  by_cases ha : Block.alu ∈ footprint c
  · exact exec_aluAgrees_of_mem hs h ha
  · exact (exec_frame h).alu_eq ha ▸ hs

/-- Settles O8: the states that a change of condition, an expiry and a configuration give fit the
condition, and each is entered with count 0. -/
theorem stepKeepsAlarmEntries : Obligations.StepKeepsAlarmEntries :=
  step_keeps (fun _ _ h => h) fun _ _ _ hs h => exec_aluAgrees hs h

end Sys2Proof.Machine
end

section
/-! PROOFS. The ports: every step keeps an OFF or SQUELCHED port quiet (R122, R123) and each AUX claim
matched by its measurement record (R141). -/

namespace Sys2Proof.Machine

open Sys2Proof.Safety

/-! ### Quiet ports -/

/-- A port that is not RUNNING holds its pin and has no period. -/
def EntryQuiet (e : PortEntry) : Prop :=
  (e.state = .off → e.pin = .highZ ∧ e.armed = [] ∧ e.progress = none)
  ∧ (e.state = .squelched → e.pin = e.active.level ∧ e.armed = [] ∧ e.progress = none)

def PortsQuiet (t : Ptu) : Prop := ∀ p : Port, EntryQuiet t.ports[p]

theorem entryQuiet_of_running {e : PortEntry} (h : e.state = .running) : EntryQuiet e := by
  simp [EntryQuiet, h]

/-- A period in progress says that the port is RUNNING. -/
theorem EntryQuiet.running_of_progress {e : PortEntry} (h : EntryQuiet e) {pr : Progress}
    (hp : e.progress = some pr) : e.state = .running := by
  obtain ⟨hoff, hsq⟩ := h
  cases hs : e.state with
  | off => simp [(hoff hs).2.2] at hp
  | squelched => simp [(hsq hs).2.2] at hp
  | running => rfl

/-- An armed period says that the port is RUNNING. -/
theorem EntryQuiet.running_of_armed {e : PortEntry} (h : EntryQuiet e) {x : Plan} {xs : List Plan}
    (ha : e.armed = x :: xs) : e.state = .running := by
  obtain ⟨hoff, hsq⟩ := h
  cases hs : e.state with
  | off => simp [(hoff hs).2.1] at ha
  | squelched => simp [(hsq hs).2.1] at ha
  | running => rfl

theorem PortsQuiet.updPort {s : State} (h : PortsQuiet s.ptu) (p : Port)
    {f : PortEntry → PortEntry} (hf : EntryQuiet (f s.ptu.ports[p])) :
    PortsQuiet (s.updPort p f).ptu := by
  intro q
  simp only [State.updPort, State.setPtu_ptu, updAt_get]
  split
  · exact hf
  · exact h q

/-- An update that leaves a RUNNING port RUNNING. -/
theorem PortsQuiet.updPort_running {s : State} (h : PortsQuiet s.ptu) (p : Port)
    {f : PortEntry → PortEntry} (hs : s.ptu.ports[p].state = .running)
    (hf : ∀ e, (f e).state = e.state) : PortsQuiet (s.updPort p f).ptu :=
  h.updPort p (entryQuiet_of_running ((hf _).trans hs))

/-- The ports as they were. -/
theorem PortsQuiet.of_ports {t u : Ptu} (h : PortsQuiet t) (hp : u.ports = t.ports) :
    PortsQuiet u := by
  intro p
  rw [hp]
  exact h p

/-! ### Claims -/

/-- A port is marked as measured on a channel exactly while the channel's record names it. -/
def ClaimsMatch (t : Ptu) : Prop :=
  ∀ (p : Port) (a : AuxId), t.ports[p].measuring = some a ↔ t.meas[a].map (·.port) = some p

/-- The marks of the ports and the ports that the records name are as they were. -/
def SameClaims (t u : Ptu) : Prop :=
  (∀ p : Port, u.ports[p].measuring = t.ports[p].measuring)
  ∧ ∀ a : AuxId, u.meas[a].map (·.port) = t.meas[a].map (·.port)

theorem SameClaims.refl (t : Ptu) : SameClaims t t := ⟨fun _ => rfl, fun _ => rfl⟩

theorem SameClaims.trans {t u v : Ptu} (h : SameClaims t u) (k : SameClaims u v) : SameClaims t v :=
  ⟨fun p => (k.1 p).trans (h.1 p), fun a => (k.2 a).trans (h.2 a)⟩

theorem ClaimsMatch.same {t u : Ptu} (h : ClaimsMatch t) (hu : SameClaims t u) : ClaimsMatch u := by
  intro p a
  rw [hu.1 p, hu.2 a]
  exact h p a

theorem sameClaims_updPort (s : State) (p : Port) {f : PortEntry → PortEntry}
    (hf : ∀ e, (f e).measuring = e.measuring) : SameClaims s.ptu (s.updPort p f).ptu := by
  refine ⟨fun q => ?_, fun _ => rfl⟩
  simp only [State.updPort, State.setPtu_ptu, updAt_get]
  split
  · rename_i h; subst h; exact hf _
  · rfl

theorem sameClaims_setMeas {s : State} {a : AuxId} {m n : DelayMeas} (hm : s.ptu.meas[a] = some m)
    (hp : n.port = m.port) : SameClaims s.ptu (s.setMeas a (some n)).ptu := by
  refine ⟨fun _ => rfl, fun b => ?_⟩
  simp only [State.setMeas, State.setPtu_ptu, Fin.getElem_fin, Vector.getElem_set]
  split
  · rename_i h
    have hab : a = b := Fin.ext h
    subst hab
    rw [Fin.getElem_fin] at hm
    rw [hm]
    simp [hp]
  · rfl

/-! ### The signal of a port (R124 to R128) -/

theorem resumePeriod_keeps (t : Tsu) (pr : Progress) (e : PortEntry) :
    (resumePeriod t pr e).state = e.state ∧ (resumePeriod t pr e).measuring = e.measuring := by
  unfold resumePeriod
  dsimp only
  split <;> exact ⟨rfl, rfl⟩

theorem sendBit_keeps (pr : Progress) (m : SiteMessage) (e : PortEntry) :
    (sendBit pr m e).state = e.state ∧ (sendBit pr m e).measuring = e.measuring := by
  unfold sendBit
  dsimp only
  split <;> exact ⟨rfl, rfl⟩

theorem sendReached_keeps (t : Tsu) (n : Nat) (e : PortEntry) :
    (sendReached t n e).state = e.state ∧ (sendReached t n e).measuring = e.measuring := by
  induction n generalizing e with
  | zero => exact ⟨rfl, rfl⟩
  | succ n ih =>
    unfold sendReached
    split
    · exact ⟨rfl, rfl⟩
    · split
      · exact ⟨rfl, rfl⟩
      · split
        · exact ⟨(ih _).1.trans (sendBit_keeps ..).1, (ih _).2.trans (sendBit_keeps ..).2⟩
        · exact ⟨rfl, rfl⟩

theorem notifyMeas_ports (p : Port) (n : MeasNotice) (s : State) :
    (notifyMeas p n s).ptu.ports = s.ptu.ports := by
  unfold notifyMeas
  split
  · rfl
  · split <;> rfl

theorem notifyMeas_sameClaims (p : Port) (n : MeasNotice) (s : State) :
    SameClaims s.ptu (notifyMeas p n s).ptu := by
  unfold notifyMeas
  split
  · exact .refl _
  · split
    · exact .refl _
    · rename_i hm; exact sameClaims_setMeas hm rfl

/-- What the beginning of a period does to its port (R124, R128). -/
def startEntry (t : Tsu) (plan : Plan) (rest : List Plan) (e : PortEntry) : PortEntry :=
  let e := { e with armed := rest, progress := some ⟨plan, 0, 0⟩ }
  if skipped t (placed plan 0) then resumePeriod t ⟨plan, 0, 0⟩ e else e

theorem beginPeriod_cons {p : Port} {s : State} {plan : Plan} {rest : List Plan}
    (h : s.ptu.ports[p].armed = plan :: rest) :
    beginPeriod p s = notifyMeas p (.period (leadOf s.tsu plan))
      (s.updPort p (startEntry s.tsu plan rest)) := by
  simp only [beginPeriod, h]
  rfl

theorem beginPeriod_nil {p : Port} {s : State} (h : s.ptu.ports[p].armed = []) :
    beginPeriod p s = s := by
  simp only [beginPeriod, h]

theorem startEntry_keeps (t : Tsu) (plan : Plan) (rest : List Plan) (e : PortEntry) :
    (startEntry t plan rest e).state = e.state
      ∧ (startEntry t plan rest e).measuring = e.measuring := by
  unfold startEntry
  dsimp only
  split
  · exact resumePeriod_keeps t ⟨plan, 0, 0⟩ { e with armed := rest, progress := some ⟨plan, 0, 0⟩ }
  · exact ⟨rfl, rfl⟩

theorem portsQuiet_beginPeriod {s : State} (h : PortsQuiet s.ptu) (p : Port) :
    PortsQuiet (beginPeriod p s).ptu := by
  cases ha : s.ptu.ports[p].armed with
  | nil => rw [beginPeriod_nil ha]; exact h
  | cons plan rest =>
    rw [beginPeriod_cons ha]
    exact (h.updPort_running p ((h p).running_of_armed ha)
      fun e => (startEntry_keeps ..).1).of_ports (notifyMeas_ports ..)

theorem beginPeriod_sameClaims (p : Port) (s : State) :
    SameClaims s.ptu (beginPeriod p s).ptu := by
  cases ha : s.ptu.ports[p].armed with
  | nil => rw [beginPeriod_nil ha]; exact .refl _
  | cons plan rest =>
    rw [beginPeriod_cons ha]
    exact (sameClaims_updPort s p fun e => (startEntry_keeps ..).2).trans (notifyMeas_sameClaims ..)

/-- Resuming begins a skipped period, passes edges of the one in progress, or does nothing (R128). -/
theorem resumePort_cases {P : State → Prop} (p : Port) (s : State) (hb : P (beginPeriod p s))
    (hr : ∀ pr, s.ptu.ports[p].progress = some pr → P (s.updPort p (resumePeriod s.tsu pr)))
    (hn : P s) : P (resumePort p s) := by
  unfold resumePort
  dsimp only
  refine ite_cases hb ?_
  split
  · exact hn
  · rename_i pr hpr; exact ite_cases hn (hr pr hpr)

theorem portsQuiet_resumePort {s : State} (h : PortsQuiet s.ptu) (p : Port) :
    PortsQuiet (resumePort p s).ptu :=
  resumePort_cases (P := fun t : State => PortsQuiet t.ptu) p s (portsQuiet_beginPeriod h p)
    (fun _ hp => h.updPort_running p ((h p).running_of_progress hp)
      fun _ => (resumePeriod_keeps ..).1) h

theorem resumePort_sameClaims (p : Port) (s : State) : SameClaims s.ptu (resumePort p s).ptu :=
  resumePort_cases (P := fun t : State => SameClaims s.ptu t.ptu) p s (beginPeriod_sameClaims p s)
    (fun _ _ => sameClaims_updPort s p fun _ => (resumePeriod_keeps ..).2) (.refl _)

/-- What each step of a fold keeps, the fold keeps. -/
theorem foldl_keeps {α : Type} {P : State → Prop} {f : State → α → State}
    (hf : ∀ s a, P s → P (f s a)) (l : List α) {s : State} (h : P s) : P (l.foldl f s) := by
  induction l generalizing s with
  | nil => exact h
  | cons a l ih => exact ih (hf s a h)

theorem portsQuiet_resumePorts {s : State} (h : PortsQuiet s.ptu) :
    PortsQuiet (resumePorts s).ptu :=
  foldl_keeps (P := fun t : State => PortsQuiet t.ptu) (fun _ p hs => portsQuiet_resumePort hs p) _ h

theorem resumePorts_sameClaims (s : State) : SameClaims s.ptu (resumePorts s).ptu :=
  foldl_keeps (P := fun t : State => SameClaims s.ptu t.ptu)
    (fun u p hu => hu.trans (resumePort_sameClaims p u)) _ (.refl _)

/-- The boundary changes the port unit by resuming alone. -/
theorem takeSecondBoundary_ptu (s : State) :
    (takeSecondBoundary s).ptu = s.ptu ∨ ∃ u : State, u.ptu = s.ptu
      ∧ (takeSecondBoundary s).ptu = (resumePorts u).ptu := by
  cases h : s.tsu.due with
  | none => rw [takeSecondBoundary, h]; exact .inl rfl
  | some x =>
    have hd := (boundaryDelivered_frame x s).ptu_eq (by decide)
    have hp : (if pendingValue s.tsu = 0 then boundaryDelivered x s
        else pruneLog (boundaryDelivered x s)).ptu = s.ptu :=
      ite_cases (P := fun t : State => t.ptu = s.ptu) hd hd
    rw [takeSecondBoundary_eq h]
    split
    · exact .inr ⟨_, hp, rfl⟩
    · exact .inl hp

/-- PORT_EDGE passes or emits an edge of the period in progress, or does nothing. -/
theorem takePortEdge_cases {P : State → Prop} (p : Port) (s : State)
    (hr : ∀ pr, s.ptu.ports[p].progress = some pr → P (s.updPort p (resumePeriod s.tsu pr)))
    (he : ∀ pr, s.ptu.ports[p].progress = some pr → P (s.updPort p (emitEdge s.tsu pr)))
    (hn : P s) : P (takePortEdge p s) := by
  unfold takePortEdge
  split
  · exact hn
  · rename_i pr hpr
    exact ite_cases (ite_cases (hr pr hpr) (ite_cases (he pr hpr) hn)) hn

theorem portsQuiet_takePortEdge {s : State} (h : PortsQuiet s.ptu) (p : Port) :
    PortsQuiet (takePortEdge p s).ptu :=
  takePortEdge_cases (P := fun t : State => PortsQuiet t.ptu) p s
    (fun _ hp => h.updPort_running p ((h p).running_of_progress hp) fun _ => (resumePeriod_keeps ..).1)
    (fun _ hp => h.updPort_running p ((h p).running_of_progress hp) fun _ => rfl) h

theorem takePortEdge_sameClaims (p : Port) (s : State) : SameClaims s.ptu (takePortEdge p s).ptu :=
  takePortEdge_cases (P := fun t : State => SameClaims s.ptu t.ptu) p s
    (fun _ _ => sameClaims_updPort s p fun _ => (resumePeriod_keeps ..).2)
    (fun _ _ => sameClaims_updPort s p fun _ => rfl) (.refl _)

/-- SITE_TIME_MESSAGE sends bits of the period in progress, drops a skipped message, or does nothing. -/
theorem takeMessage_cases {P : State → Prop} (p : Port) (s : State)
    (hd : ∀ pr, s.ptu.ports[p].progress = some pr →
      P (s.updPort p fun e => { e with progress := keepProgress { pr with bit := messageDone } }))
    (hsend : ∀ pr, s.ptu.ports[p].progress = some pr →
      P (s.updPort p (sendReached s.tsu messageDone)))
    (hn : P s) : P (takeMessage p s) := by
  unfold takeMessage
  split
  · exact hn
  · rename_i pr hpr; exact ite_cases (hd pr hpr) (hsend pr hpr)

theorem portsQuiet_takeMessage {s : State} (h : PortsQuiet s.ptu) (p : Port) :
    PortsQuiet (takeMessage p s).ptu :=
  takeMessage_cases (P := fun t : State => PortsQuiet t.ptu) p s
    (fun _ hp => h.updPort_running p ((h p).running_of_progress hp) fun _ => rfl)
    (fun _ hp => h.updPort_running p ((h p).running_of_progress hp) fun _ => (sendReached_keeps ..).1) h

theorem takeMessage_sameClaims (p : Port) (s : State) : SameClaims s.ptu (takeMessage p s).ptu :=
  takeMessage_cases (P := fun t : State => SameClaims s.ptu t.ptu) p s
    (fun _ _ => sameClaims_updPort s p fun _ => rfl)
    (fun _ _ => sameClaims_updPort s p fun _ => (sendReached_keeps ..).2) (.refl _)

/-! ### The boundary work (R129) -/

theorem applyStaged_keeps (e : PortEntry) : (applyStaged e).state = e.state
    ∧ (applyStaged e).measuring = e.measuring ∧ (applyStaged e).pin = e.pin
    ∧ (applyStaged e).armed = e.armed ∧ (applyStaged e).progress = e.progress := by
  unfold applyStaged
  split <;> exact ⟨rfl, rfl, rfl, rfl, rfl⟩

theorem takeState_off (e : PortEntry) : takeState .off e =
    if e.state = .off then { e with state := .off } else cancelPeriods .highZ { e with state := .off } := by
  cases h : e.state <;> simp [takeState, h]

theorem takeState_squelched (e : PortEntry) : takeState .squelched e =
    if e.state = .squelched then { e with state := .squelched, pin := e.active.level }
    else cancelPeriods e.active.level { e with state := .squelched } := by
  cases h : e.state <;> simp [takeState, h, squelchPin]

theorem takeState_running (e : PortEntry) : takeState .running e =
    if e.state = .running then { e with state := .running }
    else { e with state := .running, pin := idleLevel e.active.polarity } := by
  cases h : e.state <;> simp [takeState, h]

theorem takeState_state (n : PortState) (e : PortEntry) : (takeState n e).state = n := by
  cases n
  · rw [takeState_off]; split <;> rfl
  · rw [takeState_squelched]; split <;> rfl
  · rw [takeState_running]; split <;> rfl

/-- After step 2 an OFF or SQUELCHED port is quiet at the level of its active settings. -/
theorem entryQuiet_takeState {e : PortEntry} (n : PortState)
    (h : e.state = .off → e.pin = .highZ)
    (h' : e.state ≠ .running → e.armed = [] ∧ e.progress = none) : EntryQuiet (takeState n e) := by
  cases n with
  | off =>
    rw [takeState_off]
    split
    · rename_i hs
      exact ⟨fun _ => ⟨h hs, h' (by rw [hs]; decide)⟩, nofun⟩
    · exact ⟨fun _ => ⟨rfl, rfl, rfl⟩, nofun⟩
  | squelched =>
    rw [takeState_squelched]
    split
    · rename_i hs
      exact ⟨nofun, fun _ => ⟨rfl, h' (by rw [hs]; decide)⟩⟩
    · exact ⟨nofun, fun _ => ⟨rfl, rfl, rfl⟩⟩
  | running => exact entryQuiet_of_running (takeState_state ..)

theorem entryQuiet_fixMessages {e : PortEntry} (v : WorkView) (h : EntryQuiet e) :
    EntryQuiet (fixMessages v e) := by
  obtain ⟨hoff, hsq⟩ := h
  constructor
  · intro hs
    obtain ⟨h1, h2, h3⟩ := hoff hs
    simp [fixMessages, h1, h2, h3]
  · intro hs
    obtain ⟨h1, h2, h3⟩ := hsq hs
    simp [fixMessages, h1, h2, h3]

theorem entryQuiet_armPeriod {e : PortEntry} (v : WorkView) (h : EntryQuiet e) :
    EntryQuiet (armPeriod v e) := by
  unfold armPeriod
  split
  · rename_i hs; exact entryQuiet_of_running hs
  · exact h

theorem entryQuiet_workEntry {e : PortEntry} (v : WorkView) (h : EntryQuiet e) :
    EntryQuiet (workEntry v e) := by
  obtain ⟨hst, -, hpin, harm, hpr⟩ := applyStaged_keeps e
  refine entryQuiet_armPeriod v (entryQuiet_fixMessages v (entryQuiet_takeState _ ?_ ?_))
  · rw [hst, hpin]; exact fun hs => (h.1 hs).1
  · rw [hst, harm, hpr]
    intro hs
    cases hc : e.state with
    | off => exact (h.1 hc).2
    | squelched => exact (h.2 hc).2
    | running => exact absurd hc hs

theorem takeState_measuring (n : PortState) (e : PortEntry) :
    (takeState n e).measuring = e.measuring := by
  cases n
  · rw [takeState_off]; split <;> rfl
  · rw [takeState_squelched]; split <;> rfl
  · rw [takeState_running]; split <;> rfl

theorem armPeriod_measuring (v : WorkView) (e : PortEntry) :
    (armPeriod v e).measuring = e.measuring := by
  unfold armPeriod
  split <;> rfl

theorem workEntry_measuring (v : WorkView) (e : PortEntry) :
    (workEntry v e).measuring = e.measuring := by
  refine (armPeriod_measuring ..).trans ?_
  exact (takeState_measuring ..).trans (applyStaged_keeps e).2.1

theorem portsQuiet_workPort {s : State} (v : WorkView) (h : PortsQuiet s.ptu) (p : Port) :
    PortsQuiet (workPort v s p).ptu := by
  have hw : PortsQuiet (completeStaging s.ptu.ports[p].staged v.bnd.label
      (s.updPort p (workEntry v))).ptu := by
    rw [completeStaging_ptu]
    exact h.updPort p (entryQuiet_workEntry v (h p))
  unfold workPort
  dsimp only
  exact ite_cases (P := fun t : State => PortsQuiet t.ptu) (hw.of_ports (notifyMeas_ports ..)) hw

theorem workPort_sameClaims (v : WorkView) (s : State) (p : Port) :
    SameClaims s.ptu (workPort v s p).ptu := by
  have hw : SameClaims s.ptu (completeStaging s.ptu.ports[p].staged v.bnd.label
      (s.updPort p (workEntry v))).ptu := by
    rw [completeStaging_ptu]
    exact sameClaims_updPort s p (workEntry_measuring v)
  unfold workPort
  dsimp only
  exact ite_cases (P := fun t : State => SameClaims s.ptu t.ptu)
    (hw.trans (notifyMeas_sameClaims ..)) hw

theorem settleSquelched_ports (s : State) : (settleSquelched s).ptu.ports = s.ptu.ports
    ∧ (settleSquelched s).ptu.meas = s.ptu.meas := by
  simp [settleSquelched]

/-- After the twelve ports the boundary work leaves ports and records as they are. -/
theorem boundaryWork_ports (v : WorkView) (s : State) :
    (boundaryWork v s).ptu.ports = ((List.finRange 12).foldl (workPort v) s).ptu.ports
    ∧ (boundaryWork v s).ptu.meas = ((List.finRange 12).foldl (workPort v) s).ptu.meas := by
  have hb : ∀ (n : Nat) (u : State),
      (bumpPorts n (settleSquelched u)).ptu = (settleSquelched u).ptu := fun n u => bumpPorts_ptu ..
  constructor
  · exact (congrArg Ptu.ports (hb _ _)).trans (settleSquelched_ports _).1
  · exact (congrArg Ptu.meas (hb _ _)).trans (settleSquelched_ports _).2

theorem portsQuiet_boundaryWork {s : State} (v : WorkView) (h : PortsQuiet s.ptu) :
    PortsQuiet (boundaryWork v s).ptu :=
  PortsQuiet.of_ports (foldl_keeps (P := fun t : State => PortsQuiet t.ptu)
    (fun _ p hu => portsQuiet_workPort v hu p) _ h) (boundaryWork_ports v s).1

theorem boundaryWork_sameClaims (v : WorkView) (s : State) :
    SameClaims s.ptu (boundaryWork v s).ptu := by
  have hf : SameClaims s.ptu ((List.finRange 12).foldl (workPort v) s).ptu :=
    foldl_keeps (P := fun t : State => SameClaims s.ptu t.ptu)
      (fun u p hu => hu.trans (workPort_sameClaims v u p)) _ (.refl _)
  refine hf.trans ⟨fun p => ?_, fun a => ?_⟩
  · rw [(boundaryWork_ports v s).1]
  · rw [(boundaryWork_ports v s).2]

theorem portsQuiet_takeBoundaryWork {s : State} (h : PortsQuiet s.ptu) :
    PortsQuiet (takeBoundaryWork s).ptu := by
  unfold takeBoundaryWork
  split
  · rename_i b bs v vs _ _
    exact portsQuiet_boundaryWork (s := s.setWires { s.wires with ptuBnd := bs, ptuValues := vs }) _ h
  · exact h

theorem takeBoundaryWork_sameClaims (s : State) :
    SameClaims s.ptu (takeBoundaryWork s).ptu := by
  unfold takeBoundaryWork
  split
  · rename_i b bs v vs _ _
    exact boundaryWork_sameClaims (viewOf b v s)
      (s.setWires { s.wires with ptuBnd := bs, ptuValues := vs })
  · exact .refl _

/-! ### Delay measurement (R141 to R146) -/

theorem entryQuiet_congr {e f : PortEntry} (h : EntryQuiet e) (hs : f.state = e.state)
    (hp : f.pin = e.pin) (ha : f.armed = e.armed) (hr : f.progress = e.progress)
    (hact : f.active = e.active) : EntryQuiet f := by
  simpa only [EntryQuiet, hs, hp, ha, hr, hact] using h

theorem portsQuiet_stageComp {s : State} (h : PortsQuiet s.ptu) (p : Port)
    (g : Option (Int × Bool)) : PortsQuiet (stageComp p g s).ptu := by
  unfold stageComp
  split
  · exact h
  · exact h.updPort p (entryQuiet_congr (h p) rfl rfl rfl rfl rfl)

theorem stageComp_sameClaims (s : State) (p : Port) (g : Option (Int × Bool)) :
    SameClaims s.ptu (stageComp p g s).ptu := by
  unfold stageComp
  split
  · exact .refl _
  · exact sameClaims_updPort s p fun _ => rfl

theorem portsQuiet_releaseAux {s : State} (h : PortsQuiet s.ptu) (a : AuxId) (p : Port) :
    PortsQuiet (releaseAux a p s).ptu :=
  PortsQuiet.updPort (s := s.setMeas a none) (by exact h) p
    (entryQuiet_congr (h p) rfl rfl rfl rfl rfl)

/-- A channel's record and the mark of port `p` set together. -/
theorem setClaim_ports (s : State) (a : AuxId) (m : Option DelayMeas) (p q : Port)
    (x : Option AuxId) :
    ((s.setMeas a m).updPort p fun e => { e with measuring := x }).ptu.ports[q].measuring
      = if p = q then x else s.ptu.ports[q].measuring := by
  simp only [State.updPort, State.setMeas, State.setPtu_ptu, updAt_get]
  split <;> rfl

theorem setClaim_meas (s : State) (a b : AuxId) (m : Option DelayMeas) (p : Port)
    (f : PortEntry → PortEntry) :
    ((s.setMeas a m).updPort p f).ptu.meas[b] = if a = b then m else s.ptu.meas[b] := by
  have h : (s.ptu.meas.set a m)[b] = if a = b then m else s.ptu.meas[b] := by
    simp [Vector.getElem_set, Fin.ext_iff]
  exact h

/-- The record of the port that a channel measures goes with the port's mark (R141, R146). -/
theorem claimsMatch_releaseAux {s : State} (h : ClaimsMatch s.ptu) {a : AuxId} {p : Port}
    (hm : s.ptu.meas[a].map (·.port) = some p) : ClaimsMatch (releaseAux a p s).ptu := by
  have hp : s.ptu.ports[p].measuring = some a := (h p a).2 hm
  intro q b
  have hold := h q b
  rw [releaseAux, setClaim_ports, setClaim_meas]
  by_cases hq : p = q
  · subst hq
    by_cases hb : a = b
    · simp [hb]
    · rw [if_pos rfl, if_neg hb, ← hold, hp]
      simpa using hb
  · by_cases hb : a = b
    · subst hb
      rw [if_neg hq, if_pos rfl, hold, hm]
      simpa using hq
    · rw [if_neg hq, if_neg hb]
      exact hold

theorem settleDelayFailed_ptu (b : Bool) (s : State) :
    (settleDelayFailed b s).ptu = { s.ptu with delayFailed := b } := by
  simp [settleDelayFailed]

theorem portsQuiet_endResult {s : State} (h : PortsQuiet s.ptu) (a : AuxId) (m : DelayMeas) :
    PortsQuiet (endResult a m s).ptu := by
  simp only [endResult, bump_ptu, complete_ptu, settleDelayFailed_ptu]
  exact (portsQuiet_releaseAux (portsQuiet_stageComp h _ _) a m.port).of_ports rfl

theorem claimsMatch_endResult {s : State} (h : ClaimsMatch s.ptu) {a : AuxId} {m : DelayMeas}
    (hm : s.ptu.meas[a].map (·.port) = some m.port) : ClaimsMatch (endResult a m s).ptu := by
  simp only [endResult, bump_ptu, complete_ptu, settleDelayFailed_ptu]
  have hs := stageComp_sameClaims s m.port
    (if m.apply then (if measOutcome m = .ok then some (delayFigures (presentSamples m)) else none).map
      (stagedComp m) else none)
  exact (claimsMatch_releaseAux (h.same hs) ((hs.2 a).trans hm)).same ⟨fun _ => rfl, fun _ => rfl⟩

theorem portsQuiet_decideSample {s : State} (h : PortsQuiet s.ptu) (a : AuxId) (r : RoundTrip)
    (m : DelayMeas) : PortsQuiet (decideSample a r m s).ptu := by
  unfold decideSample
  dsimp only
  exact ite_cases (P := fun t : State => PortsQuiet t.ptu) (portsQuiet_endResult h a _) (by exact h)

theorem claimsMatch_decideSample {s : State} (h : ClaimsMatch s.ptu) {a : AuxId} (r : RoundTrip)
    {m n : DelayMeas} (hm : s.ptu.meas[a] = some m) (hp : n.port = m.port) :
    ClaimsMatch (decideSample a r n s).ptu := by
  unfold decideSample
  dsimp only
  refine ite_cases (P := fun t : State => ClaimsMatch t.ptu) ?_
    (h.same (sameClaims_setMeas hm (by exact hp)))
  exact claimsMatch_endResult h (by rw [hm]; simp [hp])

theorem portsQuiet_takePeriodNotice {s : State} (h : PortsQuiet s.ptu) (a : AuxId) :
    PortsQuiet (takePeriodNotice a s).ptu := by
  unfold takePeriodNotice
  split
  · exact h
  · split
    · unfold takeNotice
      dsimp only
      split
      · exact h
      · exact portsQuiet_decideSample h _ _ _
    · exact h

theorem claimsMatch_takePeriodNotice {s : State} (h : ClaimsMatch s.ptu) (a : AuxId) :
    ClaimsMatch (takePeriodNotice a s).ptu := by
  unfold takePeriodNotice
  split
  · exact h
  · rename_i m hm
    split
    · unfold takeNotice
      dsimp only
      split
      · exact h.same (sameClaims_setMeas hm rfl)
      · exact claimsMatch_decideSample h _ hm rfl
    · exact h

theorem portsQuiet_takeAuxEdge {s : State} (h : PortsQuiet s.ptu) (a : AuxId) :
    PortsQuiet (takeAuxEdge a s).ptu := by
  unfold takeAuxEdge
  split
  · exact h
  · split
    · exact h
    · exact ite_cases (P := fun t : State => PortsQuiet t.ptu) h (portsQuiet_decideSample h _ _ _)

theorem claimsMatch_takeAuxEdge {s : State} (h : ClaimsMatch s.ptu) (a : AuxId) :
    ClaimsMatch (takeAuxEdge a s).ptu := by
  unfold takeAuxEdge
  split
  · exact h
  · rename_i m hm
    split
    · exact h
    · exact ite_cases (P := fun t : State => ClaimsMatch t.ptu) h
        (claimsMatch_decideSample h _ hm rfl)

theorem portsQuiet_takeWindowExpiry {s : State} (h : PortsQuiet s.ptu) (a : AuxId) :
    PortsQuiet (takeWindowExpiry a s).ptu := by
  unfold takeWindowExpiry
  split
  · exact h
  · split
    · exact ite_cases (P := fun t : State => PortsQuiet t.ptu) (portsQuiet_decideSample h _ _ _) h
    · exact h

theorem claimsMatch_takeWindowExpiry {s : State} (h : ClaimsMatch s.ptu) (a : AuxId) :
    ClaimsMatch (takeWindowExpiry a s).ptu := by
  unfold takeWindowExpiry
  split
  · exact h
  · rename_i m hm
    split
    · exact ite_cases (P := fun t : State => ClaimsMatch t.ptu)
        (claimsMatch_decideSample h _ hm rfl) h
    · exact h

theorem portsQuiet_takeInterrupted {s : State} (h : PortsQuiet s.ptu) (a : AuxId) :
    PortsQuiet (takeInterrupted a s).ptu := by
  unfold takeInterrupted
  split
  · exact h
  · split
    · simp only [endInterrupted, bump_ptu, complete_ptu]
      exact portsQuiet_releaseAux h _ _
    · exact h

theorem claimsMatch_takeInterrupted {s : State} (h : ClaimsMatch s.ptu) (a : AuxId) :
    ClaimsMatch (takeInterrupted a s).ptu := by
  unfold takeInterrupted
  split
  · exact h
  · rename_i m hm
    split
    · simp only [endInterrupted, bump_ptu, complete_ptu]
      exact claimsMatch_releaseAux h (by rw [hm]; rfl)
    · exact h

/-! ### The port unit's requests -/

theorem supersedeStaging_ptu (g : Option Staged) (s : State) : (supersedeStaging g s).ptu = s.ptu := by
  unfold supersedeStaging
  split
  · exact completeNow_ptu ..
  · rfl

theorem portsQuiet_takeConfigurePort {s : State} (h : PortsQuiet s.ptu) (n : Slot) (p : Params) :
    PortsQuiet (takeConfigurePort n p s).ptu := by
  unfold takeConfigurePort
  split
  · rw [completeNow_ptu]; exact h
  · split
    · rw [completeNow_ptu]; exact h
    · refine ite_cases (P := fun t : State => PortsQuiet t.ptu) (by rw [completeNow_ptu]; exact h) ?_
      have hs : ∀ g, PortsQuiet (supersedeStaging g s).ptu := fun g => by
        rw [supersedeStaging_ptu]; exact h
      exact (hs _).updPort _ (entryQuiet_congr (hs _ _) rfl rfl rfl rfl rfl)

theorem takeConfigurePort_sameClaims (s : State) (n : Slot) (p : Params) :
    SameClaims s.ptu (takeConfigurePort n p s).ptu := by
  unfold takeConfigurePort
  split
  · rw [completeNow_ptu]; exact .refl _
  · split
    · rw [completeNow_ptu]; exact .refl _
    · refine ite_cases (P := fun t : State => SameClaims s.ptu t.ptu)
        (by rw [completeNow_ptu]; exact .refl _) ?_
      refine SameClaims.trans ?_ (sameClaims_updPort _ _ fun _ => rfl)
      rw [supersedeStaging_ptu]
      exact .refl _

theorem portsQuiet_takeMeasure {s : State} (h : PortsQuiet s.ptu) (n : Slot) (p : Params) :
    PortsQuiet (takeMeasure n p s).ptu := by
  have hnow : ∀ c, PortsQuiet (completeNow n c s).ptu := fun c => by
    rw [completeNow_ptu]; exact h
  unfold takeMeasure
  split
  · exact hnow _
  · refine ite_cases (P := fun t : State => PortsQuiet t.ptu) (hnow _)
      (ite_cases (P := fun t : State => PortsQuiet t.ptu) (hnow _) ?_)
    split
    · exact hnow _
    · exact PortsQuiet.updPort (by exact h) _ (entryQuiet_congr (h _) rfl rfl rfl rfl rfl)

/-- A channel found free has no record (R140, R141). -/
theorem freeAux_none {t : Ptu} {x : AuxChoice} {a : AuxId} (h : freeAux t x = some a) :
    t.meas[a] = none := by
  have key : ∀ b, ¬auxClaimed t b = true → t.meas[b] = none := fun b hb => by
    simpa [auxClaimed] using hb
  unfold freeAux at h
  split at h
  · split at h
    · cases h
    · cases h; exact key _ ‹_›
  · split at h
    · split at h
      · cases h
      · cases h; exact key _ ‹_›
    · cases h; exact key _ ‹_›

/-- A free channel claimed for an unmeasured port (R141). -/
theorem claimsMatch_claimAux {s : State} (h : ClaimsMatch s.ptu) {a : AuxId} (m : MeasureParams)
    (n : Slot) (ha : s.ptu.meas[a] = none) (hp : s.ptu.ports[m.port].measuring = none) :
    ClaimsMatch (claimAux a m n s).ptu := by
  intro q b
  have hold := h q b
  rw [claimAux, setClaim_ports, setClaim_meas]
  by_cases hq : m.port = q
  · subst hq
    by_cases hb : a = b
    · simp [hb, newMeas]
    · rw [if_pos rfl, if_neg hb, ← hold, hp]
      simpa using hb
  · by_cases hb : a = b
    · subst hb
      rw [if_neg hq, if_pos rfl, hold, ha]
      simpa [newMeas] using hq
    · rw [if_neg hq, if_neg hb]
      exact hold

theorem claimsMatch_takeMeasure {s : State} (h : ClaimsMatch s.ptu) (n : Slot) (p : Params) :
    ClaimsMatch (takeMeasure n p s).ptu := by
  have hnow : ∀ c, ClaimsMatch (completeNow n c s).ptu := fun c => by
    rw [completeNow_ptu]; exact h
  unfold takeMeasure
  split
  · exact hnow _
  · dsimp only
    split
    · exact hnow _
    · split
      · exact hnow _
      · rename_i hbusy
        split
        · exact hnow _
        · rename_i ha
          simp only [Bool.or_eq_true, not_or, Bool.not_eq_true, Option.isSome_eq_false_iff,
            Option.isNone_iff_eq_none] at hbusy
          exact claimsMatch_claimAux h _ n (freeAux_none ha) hbusy.1

/-! ### Resets and cycles -/

theorem exchangeReset_ptu (s : State) : (exchangeReset s).ptu = { s.ptu with
    ports := s.ptu.ports.map fun e => { e with staged := none, measuring := none }
    meas := Vector.replicate 2 none } := by
  simp [exchangeReset, resetPortsExchange, resetBoard, resetHostTime, resetExchangeUnit, setLeap]

theorem portsQuiet_exchangeReset {s : State} (h : PortsQuiet s.ptu) :
    PortsQuiet (exchangeReset s).ptu := by
  rw [exchangeReset_ptu]
  intro p
  simpa using entryQuiet_congr (f := { s.ptu.ports[p] with staged := none, measuring := none }) (h p)
    rfl rfl rfl rfl rfl

theorem claimsMatch_exchangeReset (s : State) : ClaimsMatch (exchangeReset s).ptu := by
  rw [exchangeReset_ptu]
  intro p a
  simp

theorem portsQuiet_resetPtu : PortsQuiet resetPtu := by
  intro p
  simp [resetPtu, resetPort, EntryQuiet]

theorem claimsMatch_resetPtu : ClaimsMatch resetPtu := by
  intro p a
  simp [resetPtu, resetPort]

theorem portsQuiet_storeWord {s : State} (h : PortsQuiet s.ptu) (addr : WordAddr) (v : Word) :
    PortsQuiet (storeWord addr v s).ptu :=
  storeWord_cases (P := fun t : State => PortsQuiet t.ptu) addr v
    (fun c w => (writeAttention_frame c w v s).ptu_eq (by decide) ▸ h)
    (fun n w => (writeSlot_frame n w v s).ptu_eq (by decide) ▸ h)
    (fun n w => (writeSample_frame n w v s).ptu_eq (by decide) ▸ h)
    (fun c w => (writeAlarm_frame c w v s).ptu_eq (by decide) ▸ h)
    (portsQuiet_exchangeReset h) h

theorem claimsMatch_storeWord {s : State} (h : ClaimsMatch s.ptu) (addr : WordAddr) (v : Word) :
    ClaimsMatch (storeWord addr v s).ptu :=
  storeWord_cases (P := fun t : State => ClaimsMatch t.ptu) addr v
    (fun c w => (writeAttention_frame c w v s).ptu_eq (by decide) ▸ h)
    (fun n w => (writeSlot_frame n w v s).ptu_eq (by decide) ▸ h)
    (fun n w => (writeSample_frame n w v s).ptu_eq (by decide) ▸ h)
    (fun c w => (writeAlarm_frame c w v s).ptu_eq (by decide) ▸ h)
    (claimsMatch_exchangeReset s) h

theorem portsQuiet_takeOscCycle {s : State} (h : PortsQuiet s.ptu) :
    PortsQuiet (takeOscCycle s).ptu := by
  unfold takeOscCycle
  split <;> exact h

theorem takeOscCycle_sameClaims (s : State) : SameClaims s.ptu (takeOscCycle s).ptu := by
  unfold takeOscCycle
  split
  · exact .refl _
  · refine ⟨fun _ => rfl, fun a => ?_⟩
    simp [runWindowTimer, Function.comp_def]

theorem portsQuiet_takeSecondBoundary {s : State} (h : PortsQuiet s.ptu) :
    PortsQuiet (takeSecondBoundary s).ptu := by
  obtain hp | ⟨u, hu, hp⟩ := takeSecondBoundary_ptu s
  · rw [hp]; exact h
  · rw [hp]; exact portsQuiet_resumePorts (hu ▸ h)

theorem takeSecondBoundary_sameClaims (s : State) :
    SameClaims s.ptu (takeSecondBoundary s).ptu := by
  obtain hp | ⟨u, hu, hp⟩ := takeSecondBoundary_ptu s
  · rw [hp]; exact .refl _
  · rw [hp, ← hu]; exact resumePorts_sameClaims u

/-! ### All commands -/

theorem exec_portsQuiet_of_mem {c : Instr} {s t : State} (hs : PortsQuiet s.ptu)
    (h : exec c s = .next t) (hp : Block.ptu ∈ footprint c) : PortsQuiet t.ptu := by
  cases c <;> simp [footprint] at hp <;> cases h
  case powerOnReset => exact portsQuiet_resetPtu
  case lineReset => exact portsQuiet_resetPtu
  case exchangeReset => exact portsQuiet_exchangeReset hs
  case hostWrite => exact portsQuiet_storeWord (by exact hs) _ _
  case oscInCycle => exact portsQuiet_takeOscCycle hs
  case secondBoundary => exact portsQuiet_takeSecondBoundary hs
  case auxLeadingEdge => exact portsQuiet_takeAuxEdge hs _
  case ptuBoundaryWork => exact portsQuiet_takeBoundaryWork hs
  case periodBegin =>
    exact ite_cases (P := fun t : State => PortsQuiet t.ptu) (portsQuiet_beginPeriod hs _) hs
  case portEdge => exact portsQuiet_takePortEdge hs _
  case siteTimeMessage => exact portsQuiet_takeMessage hs _
  case periodNotice => exact portsQuiet_takePeriodNotice hs _
  case windowTimerExpiry => exact portsQuiet_takeWindowExpiry hs _
  case measurementInterrupted => exact portsQuiet_takeInterrupted hs _
  case configurePort =>
    exact takeRequest_cases (P := fun t : State => PortsQuiet t.ptu) hs fun _ _ =>
      portsQuiet_takeConfigurePort (by exact hs) _ _
  case measurePortDelay =>
    exact takeRequest_cases (P := fun t : State => PortsQuiet t.ptu) hs fun _ _ =>
      portsQuiet_takeMeasure (by exact hs) _ _

theorem exec_claimsMatch_of_mem {c : Instr} {s t : State} (hs : ClaimsMatch s.ptu)
    (h : exec c s = .next t) (hp : Block.ptu ∈ footprint c) : ClaimsMatch t.ptu := by
  cases c <;> simp [footprint] at hp <;> cases h
  case powerOnReset => exact claimsMatch_resetPtu
  case lineReset => exact claimsMatch_resetPtu
  case exchangeReset => exact claimsMatch_exchangeReset s
  case hostWrite => exact claimsMatch_storeWord (by exact hs) _ _
  case oscInCycle => exact hs.same (takeOscCycle_sameClaims s)
  case secondBoundary => exact hs.same (takeSecondBoundary_sameClaims s)
  case auxLeadingEdge => exact claimsMatch_takeAuxEdge hs _
  case ptuBoundaryWork => exact hs.same (takeBoundaryWork_sameClaims s)
  case periodBegin =>
    exact ite_cases (P := fun t : State => ClaimsMatch t.ptu)
      (hs.same (beginPeriod_sameClaims ..)) hs
  case portEdge => exact hs.same (takePortEdge_sameClaims ..)
  case siteTimeMessage => exact hs.same (takeMessage_sameClaims ..)
  case periodNotice => exact claimsMatch_takePeriodNotice hs _
  case windowTimerExpiry => exact claimsMatch_takeWindowExpiry hs _
  case measurementInterrupted => exact claimsMatch_takeInterrupted hs _
  case configurePort =>
    refine takeRequest_cases (P := fun t : State => ClaimsMatch t.ptu) hs fun n p => ?_
    exact ClaimsMatch.same (by exact hs) (takeConfigurePort_sameClaims ..)
  case measurePortDelay =>
    exact takeRequest_cases (P := fun t : State => ClaimsMatch t.ptu) hs fun _ _ =>
      claimsMatch_takeMeasure (by exact hs) _ _

/-- Settles O9: a port is quiet as its state settles it, and only a RUNNING port has a period to begin or
to emit; a claim and its record are made and dropped together. -/
theorem stepKeepsQuietPorts : Obligations.StepKeepsQuietPorts := by
  refine ⟨step_keeps (fun _ _ h => h) fun c s t hs h => ?_,
    step_keeps (fun _ _ h => h) fun c s t hs h => ?_⟩
  · by_cases hp : Block.ptu ∈ footprint c
    · exact exec_portsQuiet_of_mem hs h hp
    · exact PortsQuiet.of_ports hs (by rw [(exec_frame h).ptu_eq hp])
  · by_cases hp : Block.ptu ∈ footprint c
    · exact exec_claimsMatch_of_mem hs h hp
    · unfold ClaimLaw; rw [(exec_frame h).ptu_eq hp]; exact hs

end Sys2Proof.Machine
end

section
/-! PROOFS. F and I within the frequency limit, whichever block writes them (R4, R78); the fraction, its
residue and the step log within their ranges (R3, R4, R13). -/

namespace Sys2Proof.Machine

open Sys2Proof.Safety Config

/-! ### The timescale unit: what every command but the writers of F leaves -/

/-- Fraction, residue and step log are in range. -/
def FractionOk (t : Tsu) : Prop :=
  t.frac < psPerSecond ∧ t.residue < residueUnit ∧ t.stepLog.length ≤ 4

/-- F is as it was, and the ranges are kept. -/
def TsuBounded (t u : Tsu) : Prop := u.freq = t.freq ∧ (FractionOk t → FractionOk u)

/-- F and the warm-up count are as they were, and the ranges are kept. -/
def TsuSteady (t u : Tsu) : Prop := u.warmCount = t.warmCount ∧ TsuBounded t u

theorem TsuSteady.refl (t : Tsu) : TsuSteady t t := ⟨rfl, rfl, id⟩

theorem TsuBounded.trans {t u v : Tsu} (h : TsuBounded t u) (k : TsuBounded u v) : TsuBounded t v :=
  ⟨k.1.trans h.1, k.2 ∘ h.2⟩

theorem TsuSteady.trans {t u v : Tsu} (h : TsuSteady t u) (k : TsuSteady u v) : TsuSteady t v :=
  ⟨k.1.trans h.1, h.2.trans k.2⟩

theorem tsuSteady_of_eq {t u : Tsu} (h : u = t) : TsuSteady t u := h ▸ .refl t

/-- A change of fields outside the ranges. -/
theorem tsuSteady_of_fields {t u : Tsu} (hw : u.warmCount = t.warmCount) (hf : u.freq = t.freq)
    (hp : u.frac = t.frac) (hr : u.residue = t.residue) (hl : u.stepLog = t.stepLog) :
    TsuSteady t u := by
  refine ⟨hw, hf, fun h => ?_⟩
  rw [FractionOk, hp, hr, hl]
  exact h

theorem setFraction_frac (raw : Nat) (t : Tsu) : (setFraction raw t).frac < psPerSecond := by
  unfold setFraction
  split
  · assumption
  · exact Nat.sub_lt (by decide) (by decide)

theorem setFraction_rest (raw : Nat) (t : Tsu) : setFraction raw t =
    { t with frac := (setFraction raw t).frac, due := (setFraction raw t).due } := by
  unfold setFraction
  split <;> rfl

/-- Setting the fraction keeps every range: it sets a fraction that is in range. -/
theorem tsuSteady_setFraction (raw : Nat) (t : Tsu) : TsuSteady t (setFraction raw t) := by
  refine ⟨?_, ?_, fun ⟨_, hr, hl⟩ => ⟨setFraction_frac raw t, ?_, ?_⟩⟩ <;> rw [setFraction_rest]
  · exact hr
  · exact hl

theorem tsuSteady_advanceTsu (t : Tsu) : TsuSteady t (advanceTsu t) := by
  have hres : cycleTotal t % residueUnit < residueUnit := Nat.mod_lt _ (by decide)
  have hr : TsuSteady t { t with residue := cycleTotal t % residueUnit } :=
    ⟨rfl, rfl, fun ⟨hf, _, hl⟩ => ⟨hf, hres, hl⟩⟩
  unfold advanceTsu
  dsimp only
  split
  · exact hr.trans (tsuSteady_of_fields rfl rfl rfl rfl rfl)
  · exact hr.trans (tsuSteady_setFraction _ _)

theorem takeOscCycle_steady (s : State) : TsuSteady s.tsu (takeOscCycle s).tsu :=
  ite_cases (P := fun t : State => TsuSteady s.tsu t.tsu) (.refl _) (tsuSteady_advanceTsu s.tsu)

theorem takeHoldEnd_steady (s : State) : TsuSteady s.tsu (takeHoldEnd s).tsu := by
  unfold takeHoldEnd
  split
  · exact ite_cases (P := fun t : State => TsuSteady s.tsu t.tsu)
      ((tsuSteady_of_fields (u := { s.tsu with hold := none }) rfl rfl rfl rfl rfl).trans
        (tsuSteady_setFraction _ _)) (.refl _)
  · exact .refl _

/-- The fraction a second starts at is in range (R5, R10). -/
theorem tsuSteady_startSecond (x : Nat) (t : Tsu) : TsuSteady t (startSecond x t) := by
  have hclear : ∀ v k, TsuSteady t { t with
      due := none, hold := none, step := none, secondStep := v, skipTo := k } := fun v k =>
    tsuSteady_of_fields rfl rfl rfl rfl rfl
  unfold startSecond
  dsimp only
  split
  · exact (hclear 0 0).trans (tsuSteady_setFraction _ _)
  · refine ite_cases (P := TsuSteady t) ((hclear _ _).trans (tsuSteady_setFraction _ _)) ?_
    refine ite_cases (P := TsuSteady t) ?_ ((hclear 0 0).trans (tsuSteady_setFraction _ _))
    exact ⟨rfl, rfl, fun ⟨_, hr, hl⟩ => ⟨(by decide : 0 < psPerSecond), hr, hl⟩⟩

theorem pruneLog_steady (s : State) : TsuSteady s.tsu (pruneLog s).tsu :=
  ⟨rfl, rfl, fun ⟨hf, hr, hl⟩ => ⟨hf, hr, (List.length_filter_le ..).trans hl⟩⟩

/-- Of a full log the drop leaves three entries (R14). -/
theorem dropOldest_length (s : State) : (dropOldest s).tsu.stepLog.length ≤ 3 := by
  unfold dropOldest
  split
  · rename_i h; exact Nat.lt_succ_iff.mp h
  · split
    · rename_i h; rw [h]; decide
    · rename_i h
      simp [h, stepLogSize]
      omega

theorem dropOldest_tsu (s : State) :
    (dropOldest s).tsu = { s.tsu with stepLog := (dropOldest s).tsu.stepLog } := by
  unfold dropOldest
  split
  · rfl
  · split <;> rfl

theorem enterStep_steady (v : Int) (s : State) : TsuSteady s.tsu (enterStep v s).tsu := by
  unfold enterStep
  split
  · exact .refl _
  · have hlen := dropOldest_length (pruneLog s)
    have hd := dropOldest_tsu (pruneLog s)
    refine ⟨?_, ?_, fun ⟨hf, hr, _⟩ => ⟨?_, ?_, ?_⟩⟩
    · exact (congrArg Tsu.warmCount hd :)
    · exact (congrArg Tsu.freq hd :)
    · exact (congrArg Tsu.frac hd :).trans_lt hf
    · exact (congrArg Tsu.residue hd :).trans_lt hr
    · simpa [Nat.lt_succ_iff] using hlen

theorem settleLabel_steady (s : State) : TsuSteady s.tsu (settleLabel s).tsu := by
  simp only [settleLabel, handIfChanged_tsu, State.setTsu_tsu]
  exact tsuSteady_of_fields rfl rfl rfl rfl rfl

theorem countWarmUp_bounded (s : State) : TsuBounded s.tsu (countWarmUp s).tsu := by
  unfold countWarmUp
  dsimp only
  exact ite_cases (P := fun t : State => TsuBounded s.tsu t.tsu) ⟨rfl, id⟩
    (ite_cases (P := fun t : State => TsuBounded s.tsu t.tsu) ⟨rfl, id⟩ ⟨rfl, id⟩)

theorem secondBegun_bounded (x : Nat) (s : State) : TsuBounded s.tsu (secondBegun x s).tsu := by
  refine TsuBounded.trans ?_ (countWarmUp_bounded _)
  refine TsuBounded.trans ?_ (enterStep_steady _ _).2
  exact (settleLabel_steady s).2.trans (tsuSteady_startSecond _ _).2

/-- Completions and delivery leave the timescale unit. -/
theorem boundaryDelivered_tsu (x : Nat) (s : State) :
    (boundaryDelivered x s).tsu = (secondBegun x s).tsu :=
  (completeAtBoundary_frame s.tsu _ (secondBegun x s)).tsu_eq (by decide)

theorem takeSecondBoundary_bounded (s : State) :
    TsuBounded s.tsu (takeSecondBoundary s).tsu := by
  cases h : s.tsu.due with
  | none => rw [takeSecondBoundary, h]; exact ⟨rfl, id⟩
  | some x =>
    have hd : TsuBounded s.tsu (boundaryDelivered x s).tsu :=
      boundaryDelivered_tsu x s ▸ secondBegun_bounded x s
    have hp : TsuBounded s.tsu (if pendingValue s.tsu = 0 then boundaryDelivered x s
        else pruneLog (boundaryDelivered x s)).tsu :=
      ite_cases (P := fun t : State => TsuBounded s.tsu t.tsu) hd (hd.trans (pruneLog_steady _).2)
    rw [takeSecondBoundary_eq h]
    refine ite_cases (P := fun t : State => TsuBounded s.tsu t.tsu) ?_ hp
    rw [(resumePorts_frame _).tsu_eq (by decide)]
    exact hp

theorem takeLoopStep_steady (s : State) : TsuSteady s.tsu (takeLoopStep s).tsu := by
  unfold takeLoopStep
  split
  · dsimp only
    split
    · exact .refl _
    · exact tsuSteady_of_fields rfl rfl rfl rfl rfl
  · exact .refl _

theorem withdrawStep_steady (before after : LoopState) (s : State) :
    TsuSteady s.tsu (withdrawStep before after s).tsu := by
  have hn : TsuSteady s.tsu { s.tsu with step := none } := tsuSteady_of_fields rfl rfl rfl rfl rfl
  unfold withdrawStep
  split
  · exact ite_cases (P := fun t : State => TsuSteady s.tsu t.tsu) hn (.refl _)
  · refine ite_cases (P := fun t : State => TsuSteady s.tsu t.tsu) ?_ (.refl _)
    rw [completeNow_tsu]; exact hn
  · exact .refl _

theorem takeLoopStateTsu_steady (s : State) : TsuSteady s.tsu (takeLoopStateTsu s).tsu := by
  unfold takeLoopStateTsu
  split
  · exact withdrawStep_steady ..
  · exact .refl _

theorem takeSetTime_steady (n : Slot) (p : Params) (s : State) :
    TsuSteady s.tsu (takeSetTime n p s).tsu := by
  unfold takeSetTime
  split
  · rw [completeNow_tsu]; exact .refl _
  · dsimp only
    split
    · simp only [State.setTsu_tsu, completeNow_tsu]
      exact tsuSteady_of_fields rfl rfl rfl rfl rfl
    · exact tsuSteady_of_fields rfl rfl rfl rfl rfl

theorem takeStepPhase_steady (n : Slot) (p : Params) (s : State) :
    TsuSteady s.tsu (takeStepPhase n p s).tsu := by
  have hnow : ∀ c, TsuSteady s.tsu (completeNow n c s).tsu := fun c => by
    rw [completeNow_tsu]; exact .refl _
  unfold takeStepPhase
  dsimp only
  refine ite_cases (P := fun t : State => TsuSteady s.tsu t.tsu) (hnow _)
    (ite_cases (P := fun t : State => TsuSteady s.tsu t.tsu) (hnow _) ?_)
  split
  · simp only [State.setTsu_tsu, completeNow_tsu]
    exact tsuSteady_of_fields rfl rfl rfl rfl rfl
  · exact tsuSteady_of_fields rfl rfl rfl rfl rfl

theorem setLeap_steady (l : Option ScheduledLeap) (s : State) :
    TsuSteady s.tsu (setLeap l s).tsu := by
  simp only [setLeap, handIfChanged_tsu, State.setTsu_tsu]
  exact tsuSteady_of_fields rfl rfl rfl rfl rfl

theorem supersedeLeap_tsu (s : State) : (supersedeLeap s).tsu = s.tsu :=
  (supersedeLeap_frame s).tsu_eq (by decide)

theorem takeScheduleLeap_steady (n : Slot) (p : Params) (s : State) :
    TsuSteady s.tsu (takeScheduleLeap n p s).tsu := by
  have hset : ∀ l, TsuSteady s.tsu (setLeap l (supersedeLeap s)).tsu := fun l =>
    (tsuSteady_of_eq (supersedeLeap_tsu s)).trans (setLeap_steady ..)
  have hnow : ∀ c, TsuSteady s.tsu (completeNow n c s).tsu := fun c => by
    rw [completeNow_tsu]; exact .refl _
  unfold takeScheduleLeap
  split
  · exact hnow _
  · rw [completeNow_tsu]; exact hset _
  · split
    · exact hnow _
    · exact ite_cases (P := fun t : State => TsuSteady s.tsu t.tsu) (hnow _) (hset _)

theorem exchangeReset_tsu (s : State) :
    (exchangeReset s).tsu = (resetHostTime (resetExchangeUnit s)).tsu := rfl

theorem exchangeReset_steady (s : State) : TsuSteady s.tsu (exchangeReset s).tsu := by
  rw [exchangeReset_tsu, resetHostTime]
  refine TsuSteady.trans ?_ (tsuSteady_of_fields rfl rfl rfl rfl rfl)
  exact setLeap_steady none (resetExchangeUnit s)

theorem storeWord_steady (addr : WordAddr) (v : Word) (s : State) :
    TsuSteady s.tsu (storeWord addr v s).tsu :=
  storeWord_cases (P := fun t : State => TsuSteady s.tsu t.tsu) addr v
    (fun c w => tsuSteady_of_eq ((writeAttention_frame c w v s).tsu_eq (by decide)))
    (fun n w => tsuSteady_of_eq ((writeSlot_frame n w v s).tsu_eq (by decide)))
    (fun n w => tsuSteady_of_eq ((writeSample_frame n w v s).tsu_eq (by decide)))
    (fun c w => tsuSteady_of_eq ((writeAlarm_frame c w v s).tsu_eq (by decide)))
    (exchangeReset_steady s) (.refl _)

/-! ### Capture and configuration: the log alone is pruned -/

theorem takeDividerBoundary_steady (d : DividerId) (s : State) :
    TsuSteady s.tsu (takeDividerBoundary d s).tsu := by
  unfold takeDividerBoundary
  split
  · exact .refl _
  · exact pruneLog_steady _

theorem useMarker_tsu (d : DividerId) (s : State) : (useMarker d s).tsu = s.tsu := by
  unfold useMarker
  dsimp only
  split
  · rfl
  · split <;> rfl

theorem takeMarker_steady (d : DividerId) (s : State) : TsuSteady s.tsu (takeMarker d s).tsu := by
  unfold takeMarker
  dsimp only
  refine ite_cases (P := fun t : State => TsuSteady s.tsu t.tsu)
    (ite_cases (P := fun t : State => TsuSteady s.tsu t.tsu) (.refl _) ?_) (.refl _)
  refine .trans ?_ (pruneLog_steady _)
  rw [useMarker_tsu]
  exact .refl _

theorem takeMissingExpiry_steady (d : DividerId) (s : State) :
    TsuSteady s.tsu (takeMissingExpiry d s).tsu :=
  ite_cases (P := fun t : State => TsuSteady s.tsu t.tsu) (pruneLog_steady _) (.refl _)

theorem takeLineChange_steady (l : LineId) (level : Bool) (s : State) :
    TsuSteady s.tsu (takeLineChange l level s).tsu :=
  ite_cases (P := fun t : State => TsuSteady s.tsu t.tsu) (.refl _)
    (ite_cases (P := fun t : State => TsuSteady s.tsu t.tsu) (.refl _) (pruneLog_steady _))

theorem configureMeasuring_steady (r : Ref) (on : Bool) (s : State) :
    TsuSteady s.tsu (configureMeasuring r on s).tsu := by
  unfold configureMeasuring
  split
  · exact .refl _
  · split
    · exact pruneLog_steady _
    · exact .refl _

theorem applyRefConfig_steady (r : Ref) (cfg : RefConfig) (s : State) :
    TsuSteady s.tsu (applyRefConfig r cfg s).tsu := by
  unfold applyRefConfig
  dsimp only
  rw [review_tsu, State.updRef_tsu, setRefState_tsu]
  exact configureMeasuring_steady r cfg.enabled (s.updRef r fun e => { e with cfg := cfg })

theorem takeConfigureReference_steady (n : Slot) (p : Params) (s : State) :
    TsuSteady s.tsu (takeConfigureReference n p s).tsu := by
  unfold takeConfigureReference
  split
  · rw [completeNow_tsu]; exact .refl _
  · split
    · rw [completeNow_tsu]; exact .refl _
    · rw [completeNow_tsu]; exact applyRefConfig_steady ..

end Sys2Proof.Machine
end

section
/-! PROOFS. The writers of F and I keep them within the frequency limit (R4, R78, R90, R99, R109). -/

namespace Sys2Proof.Machine

open Sys2Proof.Safety Config

/-! ### Parameters in range -/

theorem inRange_eq_some {lo hi x y : Nat} :
    inRange lo hi x = some y ↔ lo ≤ x ∧ x ≤ hi ∧ x = y := by
  unfold inRange
  split <;> simp_all

theorem policyOf_eq_some {w : Word} {c : StepPolicy} : policyOf w = some c ↔
    w.toNat ≤ 2 ∧ c = if w.toNat = 0 then .never else if w.toNat = 1 then .firstLock else .always := by
  have h0 : w = 0 ↔ w.toNat = 0 := by rw [← BitVec.toNat_inj]; rfl
  have h1 : w = 1 ↔ w.toNat = 1 := by rw [← BitVec.toNat_inj]; rfl
  have h2 : w = 2 ↔ w.toNat = 2 := by rw [← BitVec.toNat_inj]; rfl
  simp only [policyOf, h0, h1, h2]
  generalize w.toNat = n
  by_cases hn0 : n = 0
  · simp [hn0, eq_comm]
  · by_cases hn1 : n = 1
    · simp [hn1, eq_comm]
    · by_cases hn2 : n = 2
      · simp [hn2, eq_comm]
      · have hn : ¬n ≤ 2 := by omega
        simp [hn0, hn1, hn2, hn]

/-- A CONFIGURE-LOOP whose parameters pass every check of R98. -/
def LoopParamsGood (p : Params) : Prop :=
  p.n1 0 ≤ 15 ∧ p.n1 0 ≤ p.n1 1 ∧ p.n1 1 ≤ 24 ∧ p.n1 2 ≤ 15 ∧ p.n1 2 ≤ p.n1 3 ∧ p.n1 3 ≤ 24
  ∧ 100000 ≤ p.n3 4 ∧ p.n3 4 ≤ 500000000000 ∧ 1000 ≤ p.n3 10 ∧ p.n3 10 ≤ p.n3 7 ∧ p.n3 7 ≤ p.n3 4
  ∧ (1 ≤ p.n1 13 ∧ p.n1 13 ≤ 255) ∧ (1 ≤ p.n1 14 ∧ p.n1 14 ≤ 255)
  ∧ (1000 ≤ p.n2 15 ∧ p.n2 15 ≤ 50000000) ∧ p.n1 17 ≤ 2

/-- The configuration that such parameters name. -/
def namedLoopConfig (p : Params) : LoopConfig :=
  ⟨p.n1 0, p.n1 1, p.n1 2, p.n1 3, p.n3 4, p.n3 7, p.n3 10, p.n1 13, p.n1 14, p.n2 15,
    if p.n1 17 = 0 then .never else if p.n1 17 = 1 then .firstLock else .always⟩

theorem loopConfigOf_eq_some {p : Params} {cfg : LoopConfig} :
    loopConfigOf p = some cfg ↔ LoopParamsGood p ∧ cfg = namedLoopConfig p := by
  have hn : (p.w 17).toNat = p.n1 17 := rfl
  simp only [loopConfigOf, Option.bind_eq_bind, Option.bind_eq_some_iff, inRange_eq_some,
    policyOf_eq_some, hn, LoopParamsGood, namedLoopConfig]
  constructor
  · rintro ⟨a, ⟨_, ha, rfl⟩, b, ⟨_, hb, rfl⟩, c, ⟨_, hc, rfl⟩, d, ⟨_, hd, rfl⟩, e, ⟨_, he, rfl⟩,
      f, ⟨_, hf, rfl⟩, g, ⟨_, hg, rfl⟩, h, ⟨_, hh, rfl⟩, i, ⟨_, hi, rfl⟩, j, ⟨_, hj, rfl⟩,
      pol, ⟨hk, rfl⟩, hl⟩
    rw [Option.ite_none_right_eq_some] at hl
    obtain ⟨hl, heq⟩ := hl
    exact ⟨by omega, (Option.some.inj heq).symm⟩
  · rintro ⟨hg, rfl⟩
    refine ⟨_, ⟨by omega, by omega, rfl⟩, _, ⟨by omega, by omega, rfl⟩, _, ⟨by omega, by omega, rfl⟩,
      _, ⟨by omega, by omega, rfl⟩, _, ⟨by omega, by omega, rfl⟩, _, ⟨by omega, by omega, rfl⟩,
      _, ⟨by omega, by omega, rfl⟩, _, ⟨by omega, by omega, rfl⟩, _, ⟨by omega, by omega, rfl⟩,
      _, ⟨by omega, by omega, rfl⟩, _, ⟨by omega, rfl⟩, ?_⟩
    exact if_pos (by omega)

/-! ### Writers of F and I -/

/-- Of the timescale unit F alone may have been written, and F and I stay within their limit. -/
def LoopWrote (s t : State) : Prop :=
  t.tsu = { s.tsu with freq := t.tsu.freq } ∧ (FrequencyLaw s → FrequencyLaw t)

theorem LoopWrote.refl (s : State) : LoopWrote s s := ⟨rfl, id⟩

theorem LoopWrote.trans {s t u : State} (h : LoopWrote s t) (k : LoopWrote t u) : LoopWrote s u :=
  ⟨k.1.trans (by rw [h.1]), k.2 ∘ h.2⟩

/-- F, I and the configuration are as they were. -/
theorem frequencyLaw_same {s t : State} (h : FrequencyLaw s) (hf : t.tsu.freq = s.tsu.freq)
    (hi : t.lpu.integral = s.lpu.integral) (hc : t.lpu.cfg = s.lpu.cfg) : FrequencyLaw t := by
  rw [FrequencyLaw, hf, hi, hc]
  exact h

theorem loopWrote_same {s t : State} (ht : t.tsu = s.tsu) (hi : t.lpu.integral = s.lpu.integral)
    (hc : t.lpu.cfg = s.lpu.cfg) : LoopWrote s t :=
  ⟨by rw [ht], fun h => frequencyLaw_same h (by rw [ht]) hi hc⟩

/-- P, I and F of a computation with input `x`, each clamped as R90 says. -/
def computedP (x : Int) (s : State) : Int := roundShift x (shiftsOf s.lpu).1
def computedI (x : Int) (s : State) : Int :=
  clampAbs (s.lpu.integral + roundShift x (shiftsOf s.lpu).2) s.lpu.cfg.fLimit
def computedF (x : Int) (s : State) : Int :=
  clampAbs (computedP x s + computedI x s) s.lpu.cfg.fLimit

/-- All that a computation does: F and I written, last x and last P set, FREQUENCY-LIMIT settled (R90,
R91). -/
theorem compute_eq (x : Int) (s : State) : compute x s = { s with
    tsu := { s.tsu with freq := computedF x s }
    lpu := { s.lpu with
      integral := computedI x s
      lastX := some x
      lastP := some (computedP x s)
      freqLimit := computedF x s != computedP x s + computedI x s }
    wires := { s.wires with
      conds := s.wires.conds ++ handed codeFreqLimit s.lpu.freqLimit
        (computedF x s != computedP x s + computedI x s) } } := by
  unfold compute
  dsimp only
  rw [settleFreqLimit_eq]
  rfl

theorem compute_wrote (x : Int) (s : State) : LoopWrote s (compute x s) := by
  rw [compute_eq]
  exact ⟨rfl, fun ⟨hlo, hhi, _, _⟩ => ⟨hlo, hhi, clampAbs_natAbs_le .., clampAbs_natAbs_le ..⟩⟩

theorem gateAcquire_wrote (e : Int) (s : State) : LoopWrote s (gateAcquire e s) :=
  ite_cases (P := LoopWrote s) (compute_wrote ..)
    (ite_cases (P := LoopWrote s) (loopWrote_same rfl rfl rfl) (compute_wrote ..))

theorem checkLock_wrote (e : Int) (s : State) : LoopWrote s (checkLock e s) :=
  ite_cases (P := LoopWrote s) (loopWrote_same rfl rfl rfl) (.refl s)

theorem measureAcquire_wrote (e : Int) (s : State) : LoopWrote s (measureAcquire e s) := by
  refine LoopWrote.trans ?_ (checkLock_wrote ..)
  exact (gateAcquire_wrote e s).trans (loopWrote_same rfl rfl rfl)

theorem takeOutlier_wrote (s : State) : LoopWrote s (takeOutlier s) := by
  unfold takeOutlier
  dsimp only
  refine ite_cases (P := LoopWrote s) ?_ (loopWrote_same rfl rfl rfl)
  split <;> exact loopWrote_same rfl rfl rfl

theorem trackSteered_wrote (e : Int) (s : State) : LoopWrote s (trackSteered e s) :=
  (compute_wrote (trackInput e s) s).trans (loopWrote_same rfl rfl rfl)

theorem measureTrack_wrote (e : Int) (s : State) : LoopWrote s (measureTrack e s) := by
  rw [measureTrack_eq]
  exact ite_cases (P := LoopWrote s) (takeOutlier_wrote s) (ite_cases (P := LoopWrote s)
    ((trackSteered_wrote e s).trans (loopWrote_same rfl rfl rfl)) (trackSteered_wrote e s))

theorem measureAssisted_wrote (delta : Option Int) (newChain : Bool) (s : State) :
    LoopWrote s (measureAssisted delta newChain s) := by
  refine LoopWrote.trans (LoopWrote.trans ?_ (compute_wrote ..)) (loopWrote_same rfl rfl rfl)
  exact loopWrote_same rfl rfl rfl

theorem takeMeasurement_wrote (e delta : Option Int) (newChain : Bool) (s : State) :
    LoopWrote s (takeMeasurement e delta newChain s) := by
  have he : ∀ x, LoopWrote s (s.setLpu { s.lpu with lastE := x }) := fun x =>
    loopWrote_same rfl rfl rfl
  unfold takeMeasurement
  split
  · exact (he _).trans (measureAcquire_wrote ..)
  · exact (he _).trans (measureTrack_wrote ..)
  · exact measureAssisted_wrote ..
  · exact .refl s
  · exact .refl s

theorem takeForwarded_wrote (s : State) : LoopWrote s (takeForwarded s) := by
  unfold takeForwarded
  split
  · refine LoopWrote.trans (loopWrote_same (t := s.setWires _) rfl rfl rfl) ?_
    exact ite_cases (P := LoopWrote _) (takeMeasurement_wrote ..) (.refl _)
  · exact .refl s

/-- A lower limit clamps both F and I (R99). -/
theorem applyLoopConfig_wrote {p : Params} {cfg : LoopConfig} (h : loopConfigOf p = some cfg)
    (s : State) : LoopWrote s (applyLoopConfig cfg s) := by
  obtain ⟨hg, rfl⟩ := loopConfigOf_eq_some.mp h
  have hl : 1000 ≤ p.n2 15 ∧ p.n2 15 ≤ 50000000 := by
    obtain ⟨-, -, -, -, -, -, -, -, -, -, -, -, -, hl, -⟩ := hg
    exact hl
  have hc : LoopWrote s ((s.setLpu { s.lpu with
      cfg := namedLoopConfig p, integral := clampAbs s.lpu.integral (p.n2 15) }).setTsu
        { s.tsu with freq := clampAbs s.tsu.freq (p.n2 15) }) :=
    ⟨rfl, fun _ => ⟨hl.1, hl.2, clampAbs_natAbs_le .., clampAbs_natAbs_le ..⟩⟩
  unfold applyLoopConfig
  dsimp only
  refine ite_cases (P := LoopWrote s) (hc.trans (loopWrote_same ?_ ?_ ?_)) hc
  · exact settleFreqLimit_tsu ..
  · rw [settleFreqLimit_lpu]; rfl
  · rw [settleFreqLimit_lpu]; rfl

theorem takeConfigureLoop_wrote (n : Slot) (p : Params) (s : State) :
    LoopWrote s (takeConfigureLoop n p s) := by
  have hnow : ∀ c t, LoopWrote t (completeNow n c t) := fun c t => by
    refine loopWrote_same (completeNow_tsu ..) ?_ ?_ <;> rw [completeNow_lpu]
  unfold takeConfigureLoop
  split
  · exact hnow _ _
  · rename_i h; exact (applyLoopConfig_wrote h s).trans (hnow _ _)

/-- F_hold is written within the limit (R109). -/
theorem writeHold_wrote (f : Int) (s : State) : LoopWrote s (writeHold f s) := by
  have hc : LoopWrote s (s.setTsu { s.tsu with freq := clampAbs f s.lpu.cfg.fLimit }) :=
    ⟨rfl, fun ⟨hlo, hhi, _, hi⟩ => ⟨hlo, hhi, clampAbs_natAbs_le .., hi⟩⟩
  refine hc.trans (loopWrote_same ?_ ?_ ?_)
  · exact settleFreqLimit_tsu ..
  · rw [writeHold, settleFreqLimit_lpu]
  · rw [writeHold, settleFreqLimit_lpu]

/-- The boundary's new U and clock (R102, R109, R112). -/
def boundaryHou (h : Hou) : Hou := growUncertainty (countPosition h)

/-- In HOLDOVER the boundary writes F_hold (R109). -/
def holdWritten (s : State) : State :=
  if (boundaryHou s.hou).loop = .holdover then writeHold (holdFrequency (boundaryHou s.hou)) s else s

theorem workBoundary_eq (s : State) : workBoundary s =
    handValues ⟨(boundaryHou s.hou).u, classOf (boundaryHou s.hou)⟩
      (settleHou (boundaryHou s.hou) (holdWritten s)) := rfl

theorem takeHouBoundary_wrote (s : State) : LoopWrote s (takeHouBoundary s) := by
  unfold takeHouBoundary
  refine ite_cases (P := LoopWrote s) (.refl s) ?_
  split
  · exact .refl s
  · rw [workBoundary_eq, settleHou_eq]
    refine LoopWrote.trans ?_ (loopWrote_same rfl rfl rfl)
    exact ite_cases (P := LoopWrote s) (writeHold_wrote _ (s.setWires _)) (.refl s)

/-! ### The other commands -/

/-- A change of selection sets I to the F in force or leaves it (R80). -/
theorem frequencyLaw_takeLoopSelection {s : State} (h : FrequencyLaw s) :
    FrequencyLaw (takeLoopSelection s) := by
  obtain ⟨hlo, hhi, hf, hi⟩ := h
  unfold takeLoopSelection
  split
  · simp only [changeLoopSelection, FrequencyLaw, handIfChanged_tsu, handIfChanged_lpu, handTsu_tsu,
      handTsu_lpu, handHou_tsu, handHou_lpu]
    split <;> exact ⟨hlo, hhi, hf, ite_cases (P := fun i : Int => i.natAbs ≤ _) hf hi⟩
  · exact ⟨hlo, hhi, hf, hi⟩

theorem takeWarmUpEnd_lpu (s : State) : (takeWarmUpEnd s).lpu.integral = s.lpu.integral
    ∧ (takeWarmUpEnd s).lpu.cfg = s.lpu.cfg := by
  unfold takeWarmUpEnd
  split
  · simp only [review_lpu]; exact ⟨rfl, rfl⟩
  · exact ⟨rfl, rfl⟩

theorem takeUnusable_lpu (s : State) : (takeUnusable s).lpu.integral = s.lpu.integral
    ∧ (takeUnusable s).lpu.cfg = s.lpu.cfg := by
  unfold takeUnusable
  split
  · dsimp only
    split <;> exact ⟨rfl, rfl⟩
  · exact ⟨rfl, rfl⟩

theorem takeLpuBoundary_lpu (s : State) : (takeLpuBoundary s).lpu.integral = s.lpu.integral
    ∧ (takeLpuBoundary s).lpu.cfg = s.lpu.cfg := by
  unfold takeLpuBoundary
  split
  · exact ⟨rfl, rfl⟩
  · simp only [boundaryLpu, handIfChanged_lpu]; exact ⟨rfl, rfl⟩

theorem frequencyLaw_powerOn (w : BitVec 2) (b : Bool) (s : State) : FrequencyLaw (powerOn w b s) := by
  refine ⟨?_, ?_, ?_, ?_⟩ <;> simp [powerOn, resetTsu, resetLpu, defaultLoopConfig]

/-- After a line reset F and I are the base within the default limit (R19, R78). -/
theorem frequencyLaw_lineReset (s : State) : FrequencyLaw (lineReset s) := by
  have hf : (lineResetFreq s.hou).1.natAbs ≤ defaultLoopConfig.fLimit := by
    unfold lineResetFreq
    split
    · exact Nat.zero_le _
    · exact clampAbs_natAbs_le ..
  exact ⟨by simp [lineReset, resetLpu, defaultLoopConfig],
    by simp [lineReset, resetLpu, defaultLoopConfig], hf, hf⟩

/-! ### All commands -/

/-- The commands that write F. -/
def writesF : Instr → Bool
  | .powerOnReset _ _ | .lineReset | .forwardedMeasurement | .configureLoop | .houBoundary => true
  | _ => false

theorem exec_tsuSteady_of_mem {c : Instr} {s t : State} (h : exec c s = .next t)
    (hc : writesF c = false) (h2 : c ≠ .secondBoundary) (hb : Block.tsu ∈ footprint c) :
    TsuSteady s.tsu t.tsu := by
  cases c <;> simp [footprint] at hb <;> simp [writesF] at hc <;> cases h
  case exchangeReset => exact (exchangeReset_steady s)
  case hostWrite => exact (storeWord_steady _ _ (releaseLatch s))
  case oscInCycle => exact (takeOscCycle_steady s)
  case secondBoundary => exact absurd rfl h2
  case negativeStepHoldEnd => exact (takeHoldEnd_steady s)
  case dividerBoundary => exact (takeDividerBoundary_steady _ s)
  case marker => exact (takeMarker_steady _ s)
  case missingTimerExpiry => exact (takeMissingExpiry_steady _ s)
  case lineOkChangeCapture => exact (takeLineChange_steady _ _ s)
  case loopStepOrder => exact (takeLoopStep_steady s)
  case loopStateChangeTsu => exact (takeLoopStateTsu_steady s)
  case configureReference =>
    refine ite_cases (P := fun t : State => TsuSteady s.tsu t.tsu) (.refl _) ?_
    exact takeRequest_cases (P := fun t : State => TsuSteady s.tsu t.tsu) (.refl _) fun n p =>
      (takeConfigureReference_steady n p (s.setXu { s.xu with unit := none }))
  case setTime =>
    exact takeRequest_cases (P := fun t : State => TsuSteady s.tsu t.tsu) (.refl _) fun n p =>
      (takeSetTime_steady n p (s.setXu { s.xu with unit := none }))
  case stepPhase =>
    exact takeRequest_cases (P := fun t : State => TsuSteady s.tsu t.tsu) (.refl _) fun n p =>
      (takeStepPhase_steady n p (s.setXu { s.xu with unit := none }))
  case scheduleLeap =>
    exact takeRequest_cases (P := fun t : State => TsuSteady s.tsu t.tsu) (.refl _) fun n p =>
      (takeScheduleLeap_steady n p (s.setXu { s.xu with unit := none }))

theorem exec_tsuSteady {c : Instr} {s t : State} (h : exec c s = .next t) (hc : writesF c = false)
    (h2 : c ≠ .secondBoundary) : TsuSteady s.tsu t.tsu := by
  by_cases hb : Block.tsu ∈ footprint c
  · exact exec_tsuSteady_of_mem h hc h2 hb
  · exact tsuSteady_of_eq ((exec_frame h).tsu_eq hb)

theorem exec_tsuBounded {c : Instr} {s t : State} (h : exec c s = .next t) (hc : writesF c = false) :
    TsuBounded s.tsu t.tsu := by
  by_cases h2 : c = .secondBoundary
  · subst h2; cases h; exact takeSecondBoundary_bounded s
  · exact (exec_tsuSteady h hc h2).2

theorem exec_loopWrote {c : Instr} {s t : State} (h : exec c s = .next t)
    (hc : c = .forwardedMeasurement ∨ c = .configureLoop ∨ c = .houBoundary) : LoopWrote s t := by
  obtain rfl | rfl | rfl := hc <;> cases h
  · exact takeForwarded_wrote s
  · exact takeRequest_cases (P := LoopWrote s) (.refl s) fun n p =>
      takeConfigureLoop_wrote n p (s.setXu { s.xu with unit := none })
  · exact takeHouBoundary_wrote s

theorem writesF_cases {c : Instr} (h : writesF c = true) : (∃ w b, c = .powerOnReset w b)
    ∨ c = .lineReset ∨ c = .forwardedMeasurement ∨ c = .configureLoop ∨ c = .houBoundary := by
  cases c <;> simp [writesF] at h ⊢

/-- Commands that write no F leave I and the configuration, or set I to F. -/
theorem exec_frequencyLaw_of_mem {c : Instr} {s t : State} (hs : FrequencyLaw s)
    (h : exec c s = .next t) (hc : writesF c = false) (hb : Block.lpu ∈ footprint c) :
    FrequencyLaw t := by
  have hf : t.tsu.freq = s.tsu.freq := (exec_tsuBounded h hc).1
  cases c <;> simp [footprint] at hb <;> simp [writesF] at hc <;> cases h
  case warmUpEnd => exact frequencyLaw_same hs hf (takeWarmUpEnd_lpu s).1 (takeWarmUpEnd_lpu s).2
  case loopSelectionChange => exact frequencyLaw_takeLoopSelection hs
  case unusableNotice => exact frequencyLaw_same hs hf (takeUnusable_lpu s).1 (takeUnusable_lpu s).2
  case lpuBoundary => exact frequencyLaw_same hs hf (takeLpuBoundary_lpu s).1 (takeLpuBoundary_lpu s).2

theorem exec_frequencyLaw {c : Instr} {s t : State} (hs : FrequencyLaw s) (h : exec c s = .next t) :
    FrequencyLaw t := by
  cases hc : writesF c with
  | true =>
    obtain ⟨w, b, rfl⟩ | rfl | hw := writesF_cases hc
    · cases h; exact frequencyLaw_powerOn w b s
    · cases h; exact frequencyLaw_lineReset s
    · exact (exec_loopWrote h hw).2 hs
  | false =>
    by_cases hb : Block.lpu ∈ footprint c
    · exact exec_frequencyLaw_of_mem hs h hc hb
    · have hl := (exec_frame h).lpu_eq hb
      exact frequencyLaw_same hs (exec_tsuBounded h hc).1 (by rw [hl]) (by rw [hl])

theorem exec_fractionOk {c : Instr} {s t : State} (hs : FractionOk s.tsu) (h : exec c s = .next t) :
    FractionOk t.tsu := by
  cases hc : writesF c with
  | true =>
    obtain ⟨w, b, rfl⟩ | rfl | hw := writesF_cases hc
    · cases h; exact ⟨(by decide : 0 < psPerSecond), (by decide : 0 < residueUnit), Nat.zero_le _⟩
    · cases h; exact ⟨(by decide : 0 < psPerSecond), (by decide : 0 < residueUnit), Nat.zero_le _⟩
    · rw [(exec_loopWrote h hw).1]; exact hs
  | false => exact (exec_tsuBounded h hc).2 hs

/-- Settles O7: every write of F or I is clamped or repeats a value in range, and the fraction is set only
where it is in range. -/
theorem stepKeepsFrequencyBounded : Obligations.StepKeepsFrequencyBounded :=
  ⟨step_keeps (fun _ _ h => h) fun _ _ _ hs h => exec_frequencyLaw hs h,
    step_keeps (fun _ _ h => h) fun _ _ _ hs h => exec_fractionOk hs h⟩

end Sys2Proof.Machine
end

section
/-! PROOFS. What every command but the boundary, the warm-up end and the resets leaves on the wires: the
warm-up end as it was, and no state change to FREE-RUN waiting for the holdover unit. -/

namespace Sys2Proof.Machine

open Sys2Proof.Safety Config

/-- No state change to FREE-RUN waits for the holdover unit. -/
def NoFreeRun (l : List HouEvent) : Prop := ∀ b i, HouEvent.state b .freeRun i ∉ l

theorem NoFreeRun.tail {e : HouEvent} {l : List HouEvent} (h : NoFreeRun (e :: l)) : NoFreeRun l :=
  fun b i hm => h b i (List.mem_cons_of_mem _ hm)

theorem NoFreeRun.append {e : HouEvent} {l : List HouEvent} (h : NoFreeRun l)
    (he : ∀ b i, e ≠ .state b .freeRun i) : NoFreeRun (l ++ [e]) := by
  intro b i hm
  obtain hm | hm := List.mem_append.mp hm
  · exact h b i hm
  · exact he b i (List.mem_singleton.mp hm).symm

/-- The warm-up end is as it was, and still no state change to FREE-RUN waits. -/
def WiresPlain (w v : Wires) : Prop :=
  v.warmEnd = w.warmEnd ∧ (NoFreeRun w.houIn → NoFreeRun v.houIn)

theorem WiresPlain.refl (w : Wires) : WiresPlain w w := ⟨rfl, id⟩

theorem WiresPlain.trans {u v w : Wires} (h : WiresPlain u v) (k : WiresPlain v w) :
    WiresPlain u w := ⟨k.1.trans h.1, k.2 ∘ h.2⟩

theorem WiresPlain.of_eq {u v w : Wires} (h : WiresPlain u v) (he : w = v) : WiresPlain u w := he ▸ h

/-- Other queues may change. -/
theorem WiresPlain.same {u v w : Wires} (h : WiresPlain u v) (he : w.warmEnd = v.warmEnd)
    (hh : w.houIn = v.houIn) : WiresPlain u w := ⟨he.trans h.1, fun hn => hh ▸ h.2 hn⟩

theorem WiresPlain.ite {w : Wires} {p : Prop} [Decidable p] {s t : State}
    (hs : p → WiresPlain w s.wires) (ht : ¬p → WiresPlain w t.wires) :
    WiresPlain w (if p then s else t).wires := by
  split
  · exact hs ‹_›
  · exact ht ‹_›

variable {w : Wires} {s : State}

theorem WiresPlain.completeNow (h : WiresPlain w s.wires) (n : Slot) (c : Completion) :
    WiresPlain w (completeNow n c s).wires := h.of_eq (completeNow_wires ..)

theorem WiresPlain.handIfChanged (h : WiresPlain w s.wires) (c : AlarmCode) (a b : Bool) :
    WiresPlain w (handIfChanged c a b s).wires := by
  rw [handIfChanged_eq]
  exact h.same rfl rfl

theorem WiresPlain.review (h : WiresPlain w s.wires) (f : Option Ref) :
    WiresPlain w (review f s).wires := by
  rw [review_wires]
  exact h.same rfl rfl

theorem WiresPlain.setRefState (h : WiresPlain w s.wires) (r : Ref) (st : RefState)
    (c : Option Cause) : WiresPlain w (setRefState r st c s).wires :=
  WiresPlain.handIfChanged (by exact h) _ _ _

theorem WiresPlain.enterState (h : WiresPlain w s.wires) (r : Ref) (st : RefState)
    (c : Option Cause) : WiresPlain w (enterState r st c s).wires :=
  .ite (fun _ => h.setRefState ..) fun _ => (h.setRefState ..).review _

theorem WiresPlain.settleHou (h : WiresPlain w s.wires) (x : Hou) :
    WiresPlain w (settleHou x s).wires := by
  rw [settleHou_eq]
  exact h.same rfl rfl

theorem WiresPlain.settleFreqLimit (h : WiresPlain w s.wires) (b : Bool) :
    WiresPlain w (settleFreqLimit b s).wires := by
  rw [settleFreqLimit_eq]
  exact h.same rfl rfl

theorem WiresPlain.setLeap (h : WiresPlain w s.wires) (l : Option ScheduledLeap) :
    WiresPlain w (setLeap l s).wires := WiresPlain.handIfChanged (by exact h) _ _ _

/-- What the loop hands the holdover unit is no change to FREE-RUN. -/
theorem WiresPlain.handHou (h : WiresPlain w s.wires) {e : HouEvent}
    (he : ∀ b i, e ≠ .state b .freeRun i) : WiresPlain w (handHou e s).wires :=
  ⟨h.1, fun hn => (h.2 hn).append he⟩

theorem WiresPlain.feedHistory (h : WiresPlain w s.wires) : WiresPlain w (feedHistory s).wires :=
  h.handHou (e := .feed s.tsu.freq) nofun

theorem WiresPlain.handUncertainty (h : WiresPlain w s.wires) (v : Nat) :
    WiresPlain w (Machine.handHou (.uncertainty v) s).wires := h.handHou nofun

theorem WiresPlain.handTsu (h : WiresPlain w s.wires) (e : TsuEvent) :
    WiresPlain w (handTsu e s).wires := h.same rfl rfl

theorem WiresPlain.ownStateChange (h : WiresPlain w s.wires) {a b : LoopState} (hb : b ≠ .freeRun) :
    WiresPlain w (ownStateChange a b s).wires :=
  (h.handHou (e := .state a b s.lpu.integral) fun _ _ he => hb (HouEvent.state.inj he).2.1).same
    rfl rfl

theorem WiresPlain.takeRequest {kind : Nat} {f : Slot → Params → State → State}
    (h : WiresPlain w s.wires) (hf : ∀ n p t, WiresPlain w t.wires → WiresPlain w (f n p t).wires) :
    WiresPlain w (takeRequest kind f s).wires :=
  takeRequest_cases (P := fun t : State => WiresPlain w t.wires) h fun n p => hf n p _ h

theorem WiresPlain.foldl {α : Type} {f : State → α → State}
    (hf : ∀ t a, WiresPlain w t.wires → WiresPlain w (f t a).wires) (h : WiresPlain w s.wires)
    (l : List α) : WiresPlain w (l.foldl f s).wires :=
  foldl_keeps (P := fun t : State => WiresPlain w t.wires) hf l h

/-! ### Timescale and capture -/

theorem storeWord_wiresPlain (addr : WordAddr) (v : Word) (s : State) :
    WiresPlain s.wires (storeWord addr v s).wires :=
  storeWord_cases (P := fun t : State => WiresPlain s.wires t.wires) addr v
    (fun c w => (WiresPlain.refl _).of_eq ((writeAttention_frame c w v s).wires_eq (by decide)))
    (fun n w => (WiresPlain.refl _).of_eq ((writeSlot_frame n w v s).wires_eq (by decide)))
    (fun n w => (WiresPlain.refl _).of_eq ((writeSample_frame n w v s).wires_eq (by decide)))
    (fun c w => (WiresPlain.refl _).of_eq ((writeAlarm_frame c w v s).wires_eq (by decide)))
    (WiresPlain.setLeap (s := resetExchangeUnit s) (.refl _) none) (.refl _)

theorem takeLoopStep_wiresPlain (s : State) : WiresPlain s.wires (takeLoopStep s).wires := by
  unfold takeLoopStep
  split
  · dsimp only
    split <;> exact (WiresPlain.refl _).same rfl rfl
  · exact .refl _

theorem takeLoopStateTsu_wiresPlain (s : State) :
    WiresPlain s.wires (takeLoopStateTsu s).wires := by
  unfold takeLoopStateTsu
  split
  · rw [(withdrawStep_frame ..).wires_eq (by decide)]
    exact (WiresPlain.refl _).same rfl rfl
  · exact .refl _

theorem takeScheduleLeap_wiresPlain (n : Slot) (p : Params) (h : WiresPlain w s.wires) :
    WiresPlain w (takeScheduleLeap n p s).wires := by
  have hs : WiresPlain w (supersedeLeap s).wires :=
    h.of_eq ((supersedeLeap_frame s).wires_eq (by decide))
  unfold takeScheduleLeap
  split
  · exact h.completeNow ..
  · exact (hs.setLeap _).completeNow ..
  · split
    · exact h.completeNow ..
    · exact .ite (fun _ => h.completeNow ..) fun _ => hs.setLeap _

theorem takePpsBoundary_wiresPlain (c : PpsChannelId) (s : State) :
    WiresPlain s.wires (takePpsBoundary c s).wires := by
  unfold takePpsBoundary
  split
  · exact .refl _
  · split
    · exact .refl _
    · exact (WiresPlain.refl _).same rfl rfl

theorem takeWindowClose_wiresPlain (c : PpsChannelId) (s : State) :
    WiresPlain s.wires (takeWindowClose c s).wires := by
  unfold takeWindowClose
  split
  · split <;> exact (WiresPlain.refl _).same rfl rfl
  · exact .refl _

theorem takeDividerBoundary_wiresPlain (d : DividerId) (s : State) :
    WiresPlain s.wires (takeDividerBoundary d s).wires := by
  unfold takeDividerBoundary
  split
  · exact .refl _
  · exact (WiresPlain.refl _).same rfl rfl

theorem useMarker_wiresPlain (d : DividerId) (s : State) :
    WiresPlain s.wires (useMarker d s).wires := by
  unfold useMarker
  dsimp only
  split
  · exact .refl _
  · split <;> exact (WiresPlain.refl _).same rfl rfl

theorem takeMarker_wiresPlain (d : DividerId) (s : State) :
    WiresPlain s.wires (takeMarker d s).wires := by
  unfold takeMarker
  dsimp only
  exact .ite (fun _ => .ite (fun _ => .refl _) fun _ =>
    useMarker_wiresPlain d (s.updDiv d _)) fun _ => .refl _

theorem takeMissingExpiry_wiresPlain (d : DividerId) (s : State) :
    WiresPlain s.wires (takeMissingExpiry d s).wires :=
  .ite (fun _ => (WiresPlain.refl _).same rfl rfl) fun _ => .refl _

theorem evaluatePacket_wiresPlain (b : Boundary) (t : State) (k : PacketId)
    (h : WiresPlain w t.wires) : WiresPlain w (evaluatePacket b t k).wires :=
  .ite (fun _ => h.same rfl rfl) fun _ => h

theorem takePacketEvaluation_wiresPlain (s : State) :
    WiresPlain s.wires (takePacketEvaluation s).wires := by
  unfold takePacketEvaluation
  split
  · exact .refl _
  · rename_i b rest _
    exact WiresPlain.foldl (s := s.setWires { s.wires with pkuBnd := rest })
      (evaluatePacket_wiresPlain b) ((WiresPlain.refl _).same rfl rfl) _

/-! ### Selection -/

theorem advanceRef_wiresPlain (r : Ref) (judged : Option Cause) (h : WiresPlain w s.wires) :
    WiresPlain w (advanceRef r judged s).wires := by
  unfold advanceRef
  dsimp only
  split
  · exact h
  · split
    · exact .ite (fun _ => WiresPlain.enterState (by exact h) ..) fun _ => h
    · exact WiresPlain.enterState (by exact h) ..
  · split
    · exact h
    · exact .ite (fun _ => WiresPlain.enterState (by exact h) ..) fun _ => h
  · exact .ite (fun _ => h) fun _ => .ite (fun _ => WiresPlain.enterState (by exact h) ..) fun _ => h

theorem judgeArrival_wiresPlain (m : RawMeas) (h : WiresPlain w s.wires) :
    WiresPlain w (judgeArrival m s).wires := by
  unfold judgeArrival
  dsimp only
  refine .ite (fun _ => h) fun _ => ?_
  have ha : ∀ j f, WiresPlain w (advanceRef m.ref j (s.updRef m.ref f)).wires := fun j f =>
    advanceRef_wiresPlain m.ref j (by exact h)
  exact .ite (fun _ => (ha _ _).same rfl rfl) fun _ => ha _ _

theorem takeArrival_wiresPlain (r : Ref) (s : State) :
    WiresPlain s.wires (takeArrival r s).wires := by
  unfold takeArrival
  split
  · exact .refl _
  · rename_i m rest _
    exact judgeArrival_wiresPlain m (s := s.setWires { s.wires with arrivals := rest })
      ((WiresPlain.refl _).same rfl rfl)

theorem takeVerdict_wiresPlain (s : State) : WiresPlain s.wires (takeVerdict s).wires := by
  unfold takeVerdict
  split
  · exact .refl _
  · rename_i rest _
    have h : WiresPlain s.wires (s.setWires { s.wires with verdicts := rest }).wires :=
      (WiresPlain.refl _).same rfl rfl
    exact .ite (fun _ => h.enterState ..) fun _ => h

theorem takeLineChangeQsu_wiresPlain (l : LineId) (level : Bool) (s : State) :
    WiresPlain s.wires (takeLineChangeQsu l level s).wires := by
  have h : ∀ q, WiresPlain s.wires (s.setQsu q).wires := fun _ => .refl _
  unfold takeLineChangeQsu
  dsimp only
  exact .ite (fun _ => .refl _) fun _ => .ite (fun _ => .refl _) fun _ => (h _).enterState ..

theorem configureMeasuring_wires (r : Ref) (on : Bool) (s : State) :
    (configureMeasuring r on s).wires = s.wires :=
  (configureMeasuring_frame r on s).wires_eq (by decide)

theorem takeConfigureReference_wiresPlain (n : Slot) (p : Params) (h : WiresPlain w s.wires) :
    WiresPlain w (takeConfigureReference n p s).wires := by
  have happ : ∀ r cfg, WiresPlain w (applyRefConfig r cfg s).wires := fun r cfg => by
    refine WiresPlain.review ?_ _
    refine WiresPlain.setRefState (s := configureMeasuring r cfg.enabled (s.updRef r _)) ?_ ..
    exact h.of_eq (configureMeasuring_wires ..)
  unfold takeConfigureReference
  split
  · exact h.completeNow ..
  · split
    · exact h.completeNow ..
    · exact (happ _ _).completeNow ..

theorem takeSetPriority_wiresPlain (n : Slot) (p : Params) (h : WiresPlain w s.wires) :
    WiresPlain w (takeSetPriority n p s).wires := by
  unfold takeSetPriority
  split
  · exact (WiresPlain.review (by exact h) _).completeNow ..
  · exact h.completeNow ..

theorem takeDeclareReference_wiresPlain (n : Slot) (p : Params) (h : WiresPlain w s.wires) :
    WiresPlain w (takeDeclareReference n p s).wires := by
  have hd : ∀ r v, WiresPlain w (declareRef r v s).wires := fun r v =>
    .ite (fun _ => h) fun _ => .ite (fun _ => h) fun _ => WiresPlain.enterState (by exact h) ..
  unfold takeDeclareReference
  split
  · exact (hd _ _).completeNow ..
  · exact h.completeNow ..

theorem takeSelectMode_wiresPlain (n : Slot) (p : Params) (h : WiresPlain w s.wires) :
    WiresPlain w (takeSelectMode n p s).wires := by
  unfold takeSelectMode
  split
  · exact (WiresPlain.review (by exact h) _).completeNow ..
  · exact h.completeNow ..

theorem takeHoldoverControl_wiresPlain (n : Slot) (p : Params) (h : WiresPlain w s.wires) :
    WiresPlain w (takeHoldoverControl n p s).wires := by
  have hf : ∀ v, WiresPlain w (setForcedHoldover v s).wires := fun v =>
    .ite (fun _ => h) fun _ => WiresPlain.review (by exact h) _
  exact .ite (fun _ => .ite (fun _ => h.completeNow ..) fun _ => (hf _).completeNow ..) fun _ =>
    .ite (fun _ => (hf _).completeNow ..) fun _ => h.completeNow ..

/-! ### The loop -/

/-- FREE-RUN is entered by reset alone (R79). -/
theorem loopStateFor_ne_freeRun (r : Option Ref) : loopStateFor r ≠ .freeRun := by
  unfold loopStateFor
  split
  · decide
  · split <;> decide

theorem takeLoopSelection_wiresPlain (s : State) :
    WiresPlain s.wires (takeLoopSelection s).wires := by
  unfold takeLoopSelection
  split
  · rename_i new fault rest _
    unfold changeLoopSelection
    refine WiresPlain.handIfChanged (WiresPlain.handIfChanged ?_ _ _ _) _ _ _
    refine WiresPlain.handTsu (WiresPlain.handHou ?_ fun b i he =>
      loopStateFor_ne_freeRun new (HouEvent.state.inj he).2.1) _
    have h : WiresPlain s.wires { s.wires with loopIn := rest } := (WiresPlain.refl _).same rfl rfl
    exact .ite (fun _ => WiresPlain.handHou (by exact h) nofun) fun _ => h
  · exact .refl _

theorem WiresPlain.compute (h : WiresPlain w s.wires) (x : Int) : WiresPlain w (compute x s).wires := by
  rw [compute_eq]
  exact h.same rfl rfl

theorem WiresPlain.gateAcquire (h : WiresPlain w s.wires) (e : Int) :
    WiresPlain w (gateAcquire e s).wires :=
  .ite (fun _ => h.compute _) fun _ => .ite (fun _ => h.same rfl rfl) fun _ => h.compute _

theorem WiresPlain.measureAcquire (h : WiresPlain w s.wires) (e : Int) :
    WiresPlain w (measureAcquire e s).wires := by
  have hm := WiresPlain.handHou (s := countLock e (Machine.gateAcquire e s)) (h.gateAcquire e)
    (e := .uncertainty (uncertaintyOf e (countLock e (Machine.gateAcquire e s)))) nofun
  exact .ite (fun _ => WiresPlain.ownStateChange (by exact hm) (by decide)) fun _ => hm

theorem WiresPlain.takeOutlier (h : WiresPlain w s.wires) : WiresPlain w (takeOutlier s).wires := by
  unfold Machine.takeOutlier
  dsimp only
  refine .ite (fun _ => ?_) fun _ => h
  split
  · exact h.same rfl rfl
  · exact h

theorem WiresPlain.trackSteered (h : WiresPlain w s.wires) (e : Int) :
    WiresPlain w (trackSteered e s).wires := by
  refine WiresPlain.handUncertainty (WiresPlain.feedHistory ?_) _
  exact h.compute _

theorem WiresPlain.measureTrack (h : WiresPlain w s.wires) (e : Int) :
    WiresPlain w (measureTrack e s).wires := by
  rw [measureTrack_eq]
  exact .ite (fun _ => h.takeOutlier) fun _ => .ite
    (fun _ => WiresPlain.ownStateChange (by exact h.trackSteered e) (by decide))
    fun _ => h.trackSteered e

theorem WiresPlain.measureAssisted (h : WiresPlain w s.wires) (d : Option Int) (c : Bool) :
    WiresPlain w (measureAssisted d c s).wires := by
  refine WiresPlain.feedHistory (WiresPlain.compute ?_ _)
  exact h

theorem takeForwarded_wiresPlain (s : State) : WiresPlain s.wires (takeForwarded s).wires := by
  unfold takeForwarded
  split
  · rename_i rest _
    have h : WiresPlain s.wires (s.setWires { s.wires with loopIn := rest }).wires :=
      (WiresPlain.refl _).same rfl rfl
    refine .ite (fun _ => ?_) fun _ => h
    unfold takeMeasurement
    split
    · exact WiresPlain.measureAcquire (by exact h) _
    · exact WiresPlain.measureTrack (by exact h) _
    · exact h.measureAssisted ..
    · exact h
    · exact h
  · exact .refl _

theorem takeUnusable_wiresPlain (s : State) : WiresPlain s.wires (takeUnusable s).wires := by
  unfold takeUnusable
  split
  · dsimp only
    split <;> exact (WiresPlain.refl _).same rfl rfl
  · exact .refl _

theorem takeLpuBoundary_wiresPlain (s : State) : WiresPlain s.wires (takeLpuBoundary s).wires := by
  unfold takeLpuBoundary
  split
  · exact .refl _
  · rename_i rest _
    have h : WiresPlain s.wires { s.wires with lpuBnd := rest } := (WiresPlain.refl _).same rfl rfl
    exact WiresPlain.handIfChanged (by exact h) _ _ _

theorem takeConfigureLoop_wiresPlain (n : Slot) (p : Params) (h : WiresPlain w s.wires) :
    WiresPlain w (takeConfigureLoop n p s).wires := by
  have ha : ∀ cfg, WiresPlain w (applyLoopConfig cfg s).wires := fun cfg =>
    .ite (fun _ => WiresPlain.settleFreqLimit (by exact h) _) fun _ => h
  unfold takeConfigureLoop
  split
  · exact h.completeNow ..
  · exact (ha _).completeNow ..

/-! ### Holdover -/

/-- The holdover unit takes the event at the front of its queue. -/
theorem wiresPlain_popHou {e : HouEvent} {rest : List HouEvent} (h : s.wires.houIn = e :: rest) :
    WiresPlain s.wires { s.wires with houIn := rest } :=
  ⟨rfl, fun hn => (h ▸ hn : NoFreeRun (e :: rest)).tail⟩

theorem takeFeed_wiresPlain (s : State) : WiresPlain s.wires (takeFeed s).wires := by
  unfold takeFeed
  refine .ite (fun _ => .refl _) fun _ => ?_
  split
  · rename_i h; exact WiresPlain.settleHou (by exact wiresPlain_popHou h) _
  · exact .refl _

theorem takeUncertainty_wiresPlain (s : State) : WiresPlain s.wires (takeUncertainty s).wires := by
  unfold takeUncertainty
  refine .ite (fun _ => .refl _) fun _ => ?_
  split
  · rename_i h; exact WiresPlain.settleHou (by exact wiresPlain_popHou h) _
  · exact .refl _

theorem takeGuardPop_wiresPlain (s : State) : WiresPlain s.wires (takeGuardPop s).wires := by
  unfold takeGuardPop
  refine .ite (fun _ => .refl _) fun _ => ?_
  split
  · rename_i h; exact WiresPlain.settleHou (by exact wiresPlain_popHou h) _
  · exact .refl _

theorem takeLoopStateHou_wiresPlain (s : State) :
    WiresPlain s.wires (takeLoopStateHou s).wires := by
  unfold takeLoopStateHou
  refine .ite (fun _ => .refl _) fun _ => ?_
  split
  · rename_i h; exact WiresPlain.settleHou (by exact wiresPlain_popHou h) _
  · exact .refl _

theorem holdWritten_wiresPlain (h : WiresPlain w s.wires) : WiresPlain w (holdWritten s).wires :=
  .ite (fun _ => WiresPlain.settleFreqLimit (by exact h) _) fun _ => h

theorem takeHouBoundary_wiresPlain (s : State) : WiresPlain s.wires (takeHouBoundary s).wires := by
  unfold takeHouBoundary
  refine .ite (fun _ => .refl _) fun _ => ?_
  split
  · exact .refl _
  · rename_i rest _
    rw [workBoundary_eq]
    have h : WiresPlain s.wires (s.setWires { s.wires with houBnd := rest }).wires :=
      (WiresPlain.refl _).same rfl rfl
    exact ((holdWritten_wiresPlain h).settleHou _).same rfl rfl

theorem takeIntervalEnd_wiresPlain (s : State) : WiresPlain s.wires (takeIntervalEnd s).wires :=
  .ite (fun _ => WiresPlain.settleHou (.refl _) _) fun _ => .refl _

theorem takeConfigureHoldover_wiresPlain (n : Slot) (p : Params) (h : WiresPlain w s.wires) :
    WiresPlain w (takeConfigureHoldover n p s).wires := by
  unfold takeConfigureHoldover
  split
  · exact h.completeNow ..
  · exact (h.settleHou _).completeNow ..

theorem takeClearHistory_wiresPlain (n : Slot) (p : Params) (h : WiresPlain w s.wires) :
    WiresPlain w (takeClearHistory n p s).wires := (h.settleHou _).completeNow ..

/-! ### Ports, alarms, exchange -/

theorem WiresPlain.settleSquelched (h : WiresPlain w s.wires) :
    WiresPlain w (settleSquelched s).wires := WiresPlain.handIfChanged (by exact h) _ _ _

theorem boundaryWork_wiresPlain (v : WorkView) (h : WiresPlain w s.wires) :
    WiresPlain w (boundaryWork v s).wires := by
  have hf : WiresPlain w ((List.finRange 12).foldl (workPort v) s).wires :=
    .foldl (fun t p ht => ht.of_eq (workPort_wires t v p)) h _
  have hb : ∀ n, WiresPlain w
      (bumpPorts n (settleSquelched ((List.finRange 12).foldl (workPort v) s))).wires := fun n =>
    hf.settleSquelched.of_eq (bumpPorts_wires ..)
  unfold boundaryWork
  exact (hb _).same rfl rfl

theorem takeBoundaryWork_wiresPlain (s : State) :
    WiresPlain s.wires (takeBoundaryWork s).wires := by
  unfold takeBoundaryWork
  split
  · rename_i b bs v vs _ _
    exact boundaryWork_wiresPlain (viewOf b v s)
      (s := s.setWires { s.wires with ptuBnd := bs, ptuValues := vs }) ((WiresPlain.refl _).same rfl rfl)
  · exact .refl _

theorem decideSample_wiresPlain (a : AuxId) (r : RoundTrip) (m : DelayMeas)
    (h : WiresPlain w s.wires) : WiresPlain w (decideSample a r m s).wires := by
  unfold decideSample
  dsimp only
  refine .ite (fun _ => ?_) fun _ => h
  simp only [endResult, bump_wires, complete_wires, settleDelayFailed]
  refine WiresPlain.handIfChanged ?_ _ _ _
  simp only [State.setPtu_wires, releaseAux_wires, stageComp_wires]
  exact h

theorem takePeriodNotice_wiresPlain (a : AuxId) (s : State) :
    WiresPlain s.wires (takePeriodNotice a s).wires := by
  unfold takePeriodNotice
  split
  · exact .refl _
  · split
    · unfold takeNotice
      dsimp only
      split
      · exact .refl _
      · exact decideSample_wiresPlain _ _ _ (.refl _)
    · exact .refl _

theorem takeAuxEdge_wiresPlain (a : AuxId) (s : State) :
    WiresPlain s.wires (takeAuxEdge a s).wires := by
  unfold takeAuxEdge
  split
  · exact .refl _
  · split
    · exact .refl _
    · exact .ite (fun _ => .refl _) fun _ => decideSample_wiresPlain _ _ _ (.refl _)

theorem takeWindowExpiry_wiresPlain (a : AuxId) (s : State) :
    WiresPlain s.wires (takeWindowExpiry a s).wires := by
  unfold takeWindowExpiry
  split
  · exact .refl _
  · split
    · exact .ite (fun _ => decideSample_wiresPlain _ _ _ (.refl _)) fun _ => .refl _
    · exact .refl _

theorem acceptCondition_wires (c : AlarmCode) (b : Bool) (s : State) :
    (acceptCondition c b s).wires = s.wires :=
  (acceptCondition_frame c b s).wires_eq (by decide)

theorem takeCondition_wiresPlain (c : AlarmCode) (s : State) :
    WiresPlain s.wires (takeCondition c s).wires := by
  unfold takeCondition
  refine .ite (fun _ => .refl _) fun _ => ?_
  split
  · exact .refl _
  · rw [acceptCondition_wires]
    exact (WiresPlain.refl _).same rfl rfl

theorem takeAluBoundary_wiresPlain (s : State) : WiresPlain s.wires (takeAluBoundary s).wires := by
  unfold takeAluBoundary
  refine .ite (fun _ => .refl _) fun _ => ?_
  split
  · exact .refl _
  · exact (WiresPlain.refl _).same rfl rfl

theorem takeEpoch_wiresPlain (s : State) : WiresPlain s.wires (takeEpoch s).wires := by
  unfold takeEpoch
  split
  · exact (WiresPlain.refl _).same rfl rfl
  · exact .refl _

/-! ### All commands -/

/-- The commands that move the warm-up count or its end. -/
def movesWarmUp : Instr → Bool
  | .powerOnReset _ _ | .lineReset | .secondBoundary | .warmUpEnd => true
  | _ => false

theorem exec_wiresPlain_of_mem {c : Instr} {t : State} (h : exec c s = .next t)
    (hc : movesWarmUp c = false) (hb : Block.wires ∈ footprint c) : WiresPlain s.wires t.wires := by
  cases c <;> simp [footprint] at hb <;> simp [movesWarmUp] at hc <;> cases h
  case exchangeReset => exact WiresPlain.setLeap (s := resetExchangeUnit s) (.refl _) none
  case hostWrite => exact storeWord_wiresPlain _ _ (releaseLatch s)
  case ppsChannelBoundary => exact takePpsBoundary_wiresPlain ..
  case windowClose => exact takeWindowClose_wiresPlain ..
  case dividerBoundary => exact takeDividerBoundary_wiresPlain ..
  case marker => exact takeMarker_wiresPlain ..
  case missingTimerExpiry => exact takeMissingExpiry_wiresPlain ..
  case packetEvaluation => exact takePacketEvaluation_wiresPlain s
  case lineOkChangeQsu => exact takeLineChangeQsu_wiresPlain ..
  case measurementArrival => exact takeArrival_wiresPlain ..
  case jumpVerdict => exact takeVerdict_wiresPlain s
  case setPriority =>
    exact WiresPlain.takeRequest (.refl _) fun n p _ => takeSetPriority_wiresPlain n p
  case declareReference =>
    exact WiresPlain.takeRequest (.refl _) fun n p _ => takeDeclareReference_wiresPlain n p
  case selectMode =>
    exact WiresPlain.takeRequest (.refl _) fun n p _ => takeSelectMode_wiresPlain n p
  case holdoverControl =>
    exact WiresPlain.takeRequest (.refl _) fun n p _ => takeHoldoverControl_wiresPlain n p
  case loopSelectionChange => exact takeLoopSelection_wiresPlain s
  case unusableNotice => exact takeUnusable_wiresPlain s
  case lpuBoundary => exact takeLpuBoundary_wiresPlain s
  case forwardedMeasurement => exact takeForwarded_wiresPlain s
  case configureLoop =>
    exact WiresPlain.takeRequest (.refl _) fun n p _ => takeConfigureLoop_wiresPlain n p
  case loopStepOrder => exact takeLoopStep_wiresPlain s
  case loopStateChangeTsu => exact takeLoopStateTsu_wiresPlain s
  case scheduleLeap =>
    exact WiresPlain.takeRequest (.refl _) fun n p _ => takeScheduleLeap_wiresPlain n p
  case historyFeed => exact takeFeed_wiresPlain s
  case uncertaintyValue => exact takeUncertainty_wiresPlain s
  case guardPopNotice => exact takeGuardPop_wiresPlain s
  case loopStateChangeHou => exact takeLoopStateHou_wiresPlain s
  case intervalEnd => exact takeIntervalEnd_wiresPlain s
  case houBoundary => exact takeHouBoundary_wiresPlain s
  case ptuBoundaryWork => exact takeBoundaryWork_wiresPlain s
  case auxLeadingEdge => exact takeAuxEdge_wiresPlain ..
  case periodNotice => exact takePeriodNotice_wiresPlain ..
  case windowTimerExpiry => exact takeWindowExpiry_wiresPlain ..
  case conditionChange => exact takeCondition_wiresPlain ..
  case aluBoundary => exact takeAluBoundary_wiresPlain s
  case epochReport => exact takeEpoch_wiresPlain s
  case configureReference =>
    exact .ite (fun _ => .refl _) fun _ =>
      WiresPlain.takeRequest (.refl _) fun n p _ => takeConfigureReference_wiresPlain n p
  case configureHoldover =>
    exact .ite (fun _ => .refl _) fun _ =>
      WiresPlain.takeRequest (.refl _) fun n p _ => takeConfigureHoldover_wiresPlain n p
  case clearHistory =>
    exact .ite (fun _ => .refl _) fun _ =>
      WiresPlain.takeRequest (.refl _) fun n p _ => takeClearHistory_wiresPlain n p

theorem exec_wiresPlain {c : Instr} {t : State} (h : exec c s = .next t)
    (hc : movesWarmUp c = false) : WiresPlain s.wires t.wires := by
  by_cases hb : Block.wires ∈ footprint c
  · exact exec_wiresPlain_of_mem h hc hb
  · rw [(exec_frame h).wires_eq hb]; exact .refl _

end Sys2Proof.Machine
end

section
/-! PROOFS. The holdover unit: U with its class and conditions (R112 to R115), and the history's counts
(R101, R102, R116). -/

namespace Sys2Proof.Machine

open Sys2Proof.Safety Config

/-! ### The laws of the unit's fields -/

/-- U lies in its range, and is at its maximum in FREE-RUN. -/
def UOk (h : Hou) : Prop := h.u ≤ uMax ∧ h.uEntry ≤ uMax ∧ (h.loop = .freeRun → h.u = uMax)

/-- The history's counts lie in their ranges. -/
def HistoryOk (h : Hou) : Prop :=
  h.fill ≤ 8 ∧ h.count ≤ 65535 ∧ h.clock ≤ 4294967295
  ∧ 16 ≤ h.cfg.interval ∧ h.cfg.interval ≤ 3600
  ∧ h.position < h.cfg.interval
  ∧ (h.ended = true → h.position = 0)

/-- The four clauses of R113 say the class as one value. -/
theorem quality_iff (h : Hou) :
    ((h.loop = .freeRun → h.quality = 3)
      ∧ (h.loop ≠ .freeRun → h.cfg.uAlarm < h.u → h.quality = 2)
      ∧ (h.loop = .track → h.u ≤ h.cfg.uAlarm → h.u ≤ 100000 → h.quality = 0)
      ∧ (h.loop ≠ .freeRun → h.u ≤ h.cfg.uAlarm → ¬(h.loop = .track ∧ h.u ≤ 100000) → h.quality = 1))
    ↔ h.quality = (if h.loop = .freeRun then 3 else if h.cfg.uAlarm < h.u then 2
      else if h.loop = .track ∧ h.u ≤ 100000 then 0 else 1) := by
  by_cases hf : h.loop = .freeRun
  · simp [hf]
  · by_cases ha : h.cfg.uAlarm < h.u
    · simp [hf, ha]
    · have hle : h.u ≤ h.cfg.uAlarm := Nat.le_of_not_lt ha
      by_cases ht : h.loop = .track ∧ h.u ≤ 100000
      · rw [if_neg hf, if_neg ha, if_pos ht]
        exact ⟨fun h => h.2.2.1 ht.1 hle ht.2, fun hq => ⟨fun h => absurd h hf,
          fun _ h => absurd h ha, fun _ _ _ => hq, fun _ _ h => absurd ht h⟩⟩
      · rw [if_neg hf, if_neg ha, if_neg ht]
        exact ⟨fun h => h.2.2.2 hf hle ht, fun hq => ⟨fun h => absurd h hf,
          fun _ h => absurd h ha, fun h _ h' => absurd ⟨h, h'⟩ ht, fun _ _ _ => hq⟩⟩

theorem uncertaintyLaw_iff (s : State) :
    UncertaintyLaw s ↔ UOk s.hou ∧ HouSettled s.hou ∧ NoFreeRun s.wires.houIn := by
  constructor
  · rintro ⟨h1, h2, h3, h4, h5, h6, h7, h8, h9, h10⟩
    exact ⟨⟨h1, h2, h3⟩, ⟨(quality_iff _).mp ⟨h4, h5, h6, h7⟩, h8, h9⟩, h10⟩
  · rintro ⟨⟨h1, h2, h3⟩, ⟨hq, h8, h9⟩, h10⟩
    obtain ⟨h4, h5, h6, h7⟩ := (quality_iff _).mpr hq
    exact ⟨h1, h2, h3, h4, h5, h6, h7, h8, h9, h10⟩

theorem uOk_derived {h : Hou} (hu : UOk h) : UOk (derived h) := hu

theorem historyOk_derived {h : Hou} (hh : HistoryOk h) : HistoryOk (derived h) := hh

/-! ### What each event does to the fields -/

theorem uOk_same {h k : Hou} (hh : UOk h) (hu : k.u = h.u) (he : k.uEntry = h.uEntry)
    (hl : k.loop = h.loop) : UOk k := by
  rw [UOk, hu, he, hl]
  exact hh

theorem historyOk_discard {h : Hou} (hf : h.fill ≤ 8) (hc : h.clock ≤ 4294967295)
    (hlo : 16 ≤ h.cfg.interval) (hhi : h.cfg.interval ≤ 3600) : HistoryOk (discardInterval h) :=
  ⟨hf, Nat.zero_le _, hc, hlo, hhi, (by omega : 0 < h.cfg.interval), fun _ => rfl⟩

theorem HistoryOk.discard {h : Hou} (hh : HistoryOk h) : HistoryOk (discardInterval h) := by
  obtain ⟨hf, -, hc, hlo, hhi, -, -⟩ := hh
  exact historyOk_discard hf hc hlo hhi

theorem historyOk_addFeed {h : Hou} (f : Int) (hh : HistoryOk h) : HistoryOk (addFeed f h) := by
  obtain ⟨hf, -, hrest⟩ := hh
  exact ⟨hf, satSucc_le .., hrest⟩

theorem historyOk_endInterval {h : Hou} (hh : HistoryOk h) : HistoryOk (endInterval h) := by
  obtain ⟨hf, -, hc, hlo, hhi, -, -⟩ := hh
  unfold endInterval
  dsimp only
  refine ite_cases (P := HistoryOk) ?_ (historyOk_discard hf hc hlo hhi)
  exact historyOk_discard (h := pushLevel (roundDiv h.sum h.count) { h with ended := false })
    (Nat.min_le_left ..) hc hlo hhi

theorem uOk_endInterval {h : Hou} (hh : UOk h) : UOk (endInterval h) := by
  unfold endInterval
  dsimp only
  exact ite_cases (P := UOk) (uOk_same hh rfl rfl rfl) (uOk_same hh rfl rfl rfl)

theorem guardPops_eq (h : Hou) : guardPops h = relearn (discardInterval { h with
    levels := (popLevels h.cfg.guards h).levels, fill := h.fill - h.cfg.guards }) := by
  rw [guardPops, popLevels_eq]

theorem historyOk_guardPops {h : Hou} (hh : HistoryOk h) : HistoryOk (guardPops h) := by
  obtain ⟨hf, -, hc, hlo, hhi, -, -⟩ := hh
  rw [guardPops_eq]
  exact historyOk_discard
    (h := { h with levels := (popLevels h.cfg.guards h).levels, fill := h.fill - h.cfg.guards })
    ((Nat.sub_le ..).trans hf) hc hlo hhi

theorem uOk_guardPops {h : Hou} (hh : UOk h) : UOk (guardPops h) := by
  rw [guardPops_eq]
  exact uOk_same hh rfl rfl rfl

theorem historyOk_clearedHistory {h : Hou} (hh : HistoryOk h) : HistoryOk (clearedHistory h) := by
  obtain ⟨-, -, hc, hlo, hhi, -, -⟩ := hh
  exact historyOk_discard (h := { h with levels := Vector.replicate 8 0, fill := 0 }) (Nat.zero_le _) hc hlo hhi

theorem uOk_takeValue {h : Hou} (v : Nat) (hh : UOk h) : UOk (takeValue v h) := by
  obtain ⟨hu, he, hf⟩ := hh
  unfold takeValue
  split
  · rename_i hl
    refine ⟨Nat.min_le_left .., he, fun h' => ?_⟩
    dsimp only at h'
    simp [h'] at hl
  · exact ⟨hu, he, hf⟩

theorem historyOk_takeValue {h : Hou} (v : Nat) (hh : HistoryOk h) : HistoryOk (takeValue v h) :=
  ite_cases (P := HistoryOk) hh hh

theorem historyOk_changeHouLoop {h : Hou} (b a : LoopState) (i : Int) (hh : HistoryOk h) :
    HistoryOk (changeHouLoop b a i h) := by
  have hd : HistoryOk (if b = .track ∨ b = .assisted then discardInterval h else h) :=
    ite_cases hh.discard hh
  unfold changeHouLoop
  generalize (if b = .track ∨ b = .assisted then discardInterval h else h) = g at hd
  obtain ⟨hf, hc, -, hlo, hhi, hp, he⟩ := id hd
  exact ite_cases (P := fun k : Hou => HistoryOk { k with loop := a })
    ⟨hf, hc, Nat.zero_le _, hlo, hhi, hp, he⟩ hd

/-- The HOU sees no change to FREE-RUN, and U stays (R80, R110). -/
theorem uOk_changeHouLoop {h : Hou} (b : LoopState) {a : LoopState} (i : Int) (ha : a ≠ .freeRun)
    (hh : UOk h) : UOk (changeHouLoop b a i h) := by
  obtain ⟨hu, he, -⟩ := hh
  have hd : ∀ k : Hou, k.u = h.u → k.uEntry = h.uEntry ∨ k.uEntry = h.u →
      UOk { k with loop := a } := fun k h1 h2 =>
    ⟨h1.trans_le hu, h2.elim (·.trans_le he) (·.trans_le hu), fun h' => absurd h' ha⟩
  have hg : (if b = .track ∨ b = .assisted then discardInterval h else h).u = h.u
      ∧ (if b = .track ∨ b = .assisted then discardInterval h else h).uEntry = h.uEntry :=
    ite_cases (P := fun k : Hou => k.u = h.u ∧ k.uEntry = h.uEntry) ⟨rfl, rfl⟩ ⟨rfl, rfl⟩
  unfold changeHouLoop
  generalize (if b = .track ∨ b = .assisted then discardInterval h else h) = g at hg
  exact ite_cases (P := fun k : Hou => UOk { k with loop := a }) (hd _ hg.1 (.inr hg.1))
    (hd g hg.1 (.inl hg.2))

theorem countPosition_rest (h : Hou) : (countPosition h).u = h.u ∧ (countPosition h).uEntry = h.uEntry
    ∧ (countPosition h).loop = h.loop ∧ (countPosition h).fill = h.fill
    ∧ (countPosition h).count = h.count ∧ (countPosition h).clock = h.clock
    ∧ (countPosition h).cfg = h.cfg := by
  rw [countPosition_eq]
  exact ⟨rfl, rfl, rfl, rfl, rfl, rfl, rfl⟩

/-- An interval that ends at the boundary has its position back at 0 (R102). -/
theorem historyOk_countPosition {h : Hou} (he : h.ended = false) (hh : HistoryOk h) :
    HistoryOk (countPosition h) := by
  obtain ⟨hf, hc, hk, hlo, hhi, hp, -⟩ := hh
  obtain ⟨-, -, -, hf', hc', hk', hcfg⟩ := countPosition_rest h
  have hlt := countPosition_lt (by omega) hp
  rw [HistoryOk, hf', hc', hk', hcfg]
  refine ⟨hf, hc, hk, hlo, hhi, hlt, ?_⟩
  unfold countPosition
  split
  · split
    · simp [he]
    · exact fun _ => rfl
  · simp [he]

theorem historyOk_growUncertainty {h : Hou} (hh : HistoryOk h) : HistoryOk (growUncertainty h) := by
  obtain ⟨hf, hc, hk, hrest⟩ := hh
  unfold growUncertainty
  split
  · exact ⟨hf, hc, hk, hrest⟩
  · exact ⟨hf, hc, satSucc_le .., hrest⟩
  · exact ⟨hf, hc, hk, hrest⟩

theorem uOk_growUncertainty {h : Hou} (hh : UOk h) : UOk (growUncertainty h) := by
  obtain ⟨hu, he, hf⟩ := hh
  unfold growUncertainty
  split
  · rename_i hl; exact ⟨Nat.min_le_left .., he, fun h' => by simp [hl] at h'⟩
  · rename_i hl; exact ⟨Nat.min_le_left .., he, fun h' => by simp [hl] at h'⟩
  · exact ⟨hu, he, hf⟩

theorem historyOk_boundaryHou {h : Hou} (he : h.ended = false) (hh : HistoryOk h) :
    HistoryOk (boundaryHou h) := historyOk_growUncertainty (historyOk_countPosition he hh)

theorem uOk_boundaryHou {h : Hou} (hh : UOk h) : UOk (boundaryHou h) := by
  obtain ⟨hu, he, hl, -⟩ := countPosition_rest h
  exact uOk_growUncertainty (uOk_same hh hu he hl)

theorem uOk_applyHoldConfig {h : Hou} (cfg : HoldConfig) (hh : UOk h) :
    UOk (applyHoldConfig cfg h) :=
  ite_cases (P := UOk) (uOk_same hh rfl rfl rfl) (uOk_same hh rfl rfl rfl)

/-- A CONFIGURE-HOLDOVER whose parameters, the interval aside, pass every check of R116. -/
def HoldParamsGood (p : Params) : Prop :=
  p.n1 1 ≤ 3 ∧ p.n1 2 ≤ 1 ∧ (p.i2 3).natAbs ≤ 1000000
  ∧ p.n2 5 ≤ 1000000 ∧ p.n2 7 ≤ 100000000 ∧ p.n2 9 ≤ 1000000
  ∧ p.n2 11 ≤ 1000000 ∧ (1000 ≤ p.n3 13 ∧ p.n3 13 ≤ 999999999999)
  ∧ (1 ≤ p.n1 16 ∧ p.n1 16 ≤ 8)

/-- The configuration that such parameters name, its interval clamped. -/
def namedHoldConfig (p : Params) : HoldConfig :=
  ⟨max 16 (min 3600 (p.n1 0)), p.n1 1, decide (p.n1 2 = 1), p.i2 3, p.n2 5, p.n2 7, p.n2 9, p.n2 11,
    p.n3 13, p.n1 16⟩

theorem agingModeOf_eq_some {w : Word} {b : Bool} :
    agingModeOf w = some b ↔ w.toNat ≤ 1 ∧ b = decide (w.toNat = 1) := by
  have h0 : w = 0 ↔ w.toNat = 0 := by rw [← BitVec.toNat_inj]; rfl
  have h1 : w = 1 ↔ w.toNat = 1 := by rw [← BitVec.toNat_inj]; rfl
  simp only [agingModeOf, h0, h1]
  generalize w.toNat = n
  by_cases hn0 : n = 0
  · simp [hn0, eq_comm]
  · by_cases hn1 : n = 1
    · simp [hn1, eq_comm]
    · have hn : ¬n ≤ 1 := by omega
      simp [hn0, hn1, hn]

theorem holdConfigOf_eq_some {p : Params} {x : HoldConfig × Bool} :
    holdConfigOf p = some x ↔
      HoldParamsGood p ∧ x = (namedHoldConfig p, max 16 (min 3600 (p.n1 0)) != p.n1 0) := by
  have hn : (p.w 2).toNat = p.n1 2 := rfl
  unfold holdConfigOf
  by_cases hd : -1000000 ≤ p.i2 3 ∧ p.i2 3 ≤ 1000000
  · simp only [if_pos hd, Option.bind_eq_bind, Option.bind_eq_some_iff, inRange_eq_some,
      agingModeOf_eq_some, hn, HoldParamsGood, namedHoldConfig, Option.some.injEq]
    constructor
    · rintro ⟨a, ⟨_, ha, rfl⟩, b, ⟨hb, rfl⟩, c, rfl, d, ⟨_, hd', rfl⟩, e, ⟨_, he, rfl⟩,
        f, ⟨_, hf, rfl⟩, g, ⟨_, hg, rfl⟩, h, ⟨hh', hh, rfl⟩, i, ⟨hi', hi, rfl⟩, rfl⟩
      exact ⟨by omega, rfl⟩
    · rintro ⟨hg, rfl⟩
      exact ⟨_, ⟨by omega, by omega, rfl⟩, _, ⟨by omega, rfl⟩, _, rfl, _, ⟨by omega, by omega, rfl⟩,
        _, ⟨by omega, by omega, rfl⟩, _, ⟨by omega, by omega, rfl⟩, _, ⟨by omega, by omega, rfl⟩,
        _, ⟨by omega, by omega, rfl⟩, _, ⟨by omega, by omega, rfl⟩, rfl⟩
  · simp only [if_neg hd, Option.bind_eq_bind, Option.bind_eq_some_iff, HoldParamsGood]
    constructor
    · rintro ⟨_, -, _, -, _, h, -⟩
      cases h
    · rintro ⟨hg, -⟩
      omega

/-- The interval of a configuration lies between 16 and 3,600 (R116). -/
theorem holdConfigOf_interval {p : Params} {cfg : HoldConfig} {b : Bool}
    (h : holdConfigOf p = some (cfg, b)) : 16 ≤ cfg.interval ∧ cfg.interval ≤ 3600 := by
  obtain ⟨-, h⟩ := holdConfigOf_eq_some.mp h
  obtain ⟨rfl, -⟩ := Prod.mk.inj h
  dsimp only [namedHoldConfig]
  omega

/-- A changed interval starts the position again (R117). -/
theorem historyOk_applyHoldConfig {h : Hou} {cfg : HoldConfig}
    (hc : 16 ≤ cfg.interval ∧ cfg.interval ≤ 3600) (hh : HistoryOk h) :
    HistoryOk (applyHoldConfig cfg h) := by
  obtain ⟨hf, hcnt, hk, -, -, hp, he⟩ := hh
  unfold applyHoldConfig
  dsimp only
  split
  · exact historyOk_discard (h := { h with cfg := cfg }) hf hk hc.1 hc.2
  · rename_i hne
    have heq : cfg.interval = h.cfg.interval := not_not.mp hne
    exact ⟨hf, hcnt, hk, hc.1, hc.2, heq ▸ hp, he⟩

/-! ### The unit's commands -/

/-- Every command of the unit settles new fields or leaves them; `f` is what its event does. -/
def HouSettles (s t : State) (f : Hou → Prop) : Prop :=
  t.hou = s.hou ∨ ∃ h, f h ∧ t.hou = derived h

theorem takeFeed_settles (s : State) :
    HouSettles s (takeFeed s) fun h => ∃ f, h = addFeed f s.hou := by
  unfold takeFeed
  split
  · exact .inl rfl
  · split
    · exact .inr ⟨_, ⟨_, rfl⟩, settleHou_hou ..⟩
    · exact .inl rfl

theorem takeUncertainty_settles (s : State) :
    HouSettles s (takeUncertainty s) fun h => ∃ v, h = takeValue v s.hou := by
  unfold takeUncertainty
  split
  · exact .inl rfl
  · split
    · exact .inr ⟨_, ⟨_, rfl⟩, settleHou_hou ..⟩
    · exact .inl rfl

theorem takeGuardPop_settles (s : State) :
    HouSettles s (takeGuardPop s) fun h => h = guardPops s.hou := by
  unfold takeGuardPop
  split
  · exact .inl rfl
  · split
    · exact .inr ⟨_, rfl, settleHou_hou ..⟩
    · exact .inl rfl

theorem takeLoopStateHou_settles (s : State) :
    HouSettles s (takeLoopStateHou s) fun h => ∃ b a i,
      .state b a i ∈ s.wires.houIn ∧ h = changeHouLoop b a i s.hou := by
  unfold takeLoopStateHou
  split
  · exact .inl rfl
  · split
    · rename_i hw
      exact .inr ⟨_, ⟨_, _, _, hw ▸ List.mem_cons_self, rfl⟩, settleHou_hou ..⟩
    · exact .inl rfl

theorem takeIntervalEnd_settles (s : State) :
    HouSettles s (takeIntervalEnd s) fun h => h = endInterval s.hou := by
  unfold takeIntervalEnd
  split
  · exact .inr ⟨_, rfl, settleHou_hou ..⟩
  · exact .inl rfl

theorem takeHouBoundary_settles (s : State) :
    HouSettles s (takeHouBoundary s) fun h => s.hou.ended = false ∧ h = boundaryHou s.hou := by
  unfold takeHouBoundary
  split
  · exact .inl rfl
  · rename_i he
    split
    · exact .inl rfl
    · rw [workBoundary_eq]
      exact .inr ⟨_, ⟨by simpa [intervalDue] using he, rfl⟩, settleHou_hou ..⟩

theorem takeConfigureHoldover_settles (s : State) (n : Slot) (p : Params) :
    HouSettles s (takeConfigureHoldover n p s) fun h => ∃ cfg : HoldConfig,
      (16 ≤ cfg.interval ∧ cfg.interval ≤ 3600) ∧ h = applyHoldConfig cfg s.hou := by
  unfold takeConfigureHoldover
  split
  · exact .inl (completeNow_hou ..)
  · rename_i cfg b hp
    exact .inr ⟨_, ⟨cfg, holdConfigOf_interval hp, rfl⟩, (completeNow_hou ..).trans (settleHou_hou ..)⟩

theorem takeClearHistory_settles (s : State) (n : Slot) (p : Params) :
    HouSettles s (takeClearHistory n p s) fun h => h = clearedHistory s.hou :=
  .inr ⟨_, rfl, (completeNow_hou ..).trans (settleHou_hou ..)⟩

/-- What the unit's events may make of its fields. -/
def HouNext (s : State) (h : Hou) : Prop :=
  (∃ f, h = addFeed f s.hou) ∨ (∃ v, h = takeValue v s.hou) ∨ h = guardPops s.hou
  ∨ (∃ b a i, .state b a i ∈ s.wires.houIn ∧ h = changeHouLoop b a i s.hou)
  ∨ h = endInterval s.hou ∨ (s.hou.ended = false ∧ h = boundaryHou s.hou)
  ∨ (∃ cfg : HoldConfig, (16 ≤ cfg.interval ∧ cfg.interval ≤ 3600)
      ∧ h = applyHoldConfig cfg s.hou)
  ∨ h = clearedHistory s.hou

theorem HouSettles.mono {s t : State} {f g : Hou → Prop} (h : HouSettles s t f)
    (hfg : ∀ k, f k → g k) : HouSettles s t g :=
  h.imp_right fun ⟨k, hk, ht⟩ => ⟨k, hfg k hk, ht⟩

theorem exec_houSettles_of_mem {c : Instr} {s t : State} (h : exec c s = .next t)
    (hb : Block.hou ∈ footprint c) (hr : ∀ w b, c ≠ .powerOnReset w b) (hl : c ≠ .lineReset) :
    HouSettles s t (HouNext s) := by
  cases c <;> simp [footprint] at hb <;> cases h
  case powerOnReset => exact absurd rfl (hr _ _)
  case lineReset => exact absurd rfl hl
  case historyFeed => exact (takeFeed_settles s).mono fun _ h => .inl h
  case uncertaintyValue => exact (takeUncertainty_settles s).mono fun _ h => .inr (.inl h)
  case guardPopNotice => exact (takeGuardPop_settles s).mono fun _ h => .inr (.inr (.inl h))
  case loopStateChangeHou =>
    exact (takeLoopStateHou_settles s).mono fun _ h => .inr (.inr (.inr (.inl h)))
  case intervalEnd =>
    exact (takeIntervalEnd_settles s).mono fun _ h => .inr (.inr (.inr (.inr (.inl h))))
  case houBoundary =>
    exact (takeHouBoundary_settles s).mono fun _ h => .inr (.inr (.inr (.inr (.inr (.inl h)))))
  case configureHoldover =>
    refine ite_cases (P := fun t : State => HouSettles s t _) (.inl rfl) ?_
    refine takeRequest_cases (P := fun t : State => HouSettles s t _) (.inl rfl) fun n p => ?_
    exact (takeConfigureHoldover_settles (s.setXu { s.xu with unit := none }) n p).mono
      fun _ h => .inr (.inr (.inr (.inr (.inr (.inr (.inl h))))))
  case clearHistory =>
    refine ite_cases (P := fun t : State => HouSettles s t _) (.inl rfl) ?_
    refine takeRequest_cases (P := fun t : State => HouSettles s t _) (.inl rfl) fun n p => ?_
    exact (takeClearHistory_settles (s.setXu { s.xu with unit := none }) n p).mono
      fun _ h => .inr (.inr (.inr (.inr (.inr (.inr (.inr h))))))

theorem historyOk_of_next {s : State} {h : Hou} (hs : HistoryOk s.hou) (hn : HouNext s h) :
    HistoryOk h := by
  obtain ⟨f, rfl⟩ | ⟨v, rfl⟩ | rfl | ⟨b, a, i, -, rfl⟩ | rfl | ⟨he, rfl⟩ | ⟨cfg, hc, rfl⟩ | rfl := hn
  · exact historyOk_addFeed f hs
  · exact historyOk_takeValue v hs
  · exact historyOk_guardPops hs
  · exact historyOk_changeHouLoop b a i hs
  · exact historyOk_endInterval hs
  · exact historyOk_boundaryHou he hs
  · exact historyOk_applyHoldConfig hc hs
  · exact historyOk_clearedHistory hs

theorem uOk_of_next {s : State} {h : Hou} (hs : UOk s.hou) (hw : NoFreeRun s.wires.houIn)
    (hn : HouNext s h) : UOk h := by
  obtain ⟨f, rfl⟩ | ⟨v, rfl⟩ | rfl | ⟨b, a, i, hm, rfl⟩ | rfl | ⟨-, rfl⟩ | ⟨cfg, -, rfl⟩ | rfl := hn
  · exact uOk_same hs rfl rfl rfl
  · exact uOk_takeValue v hs
  · exact uOk_guardPops hs
  · exact uOk_changeHouLoop b i (fun ha => hw b i (ha ▸ hm)) hs
  · exact uOk_endInterval hs
  · exact uOk_boundaryHou hs
  · exact uOk_applyHoldConfig cfg hs
  · exact uOk_same hs rfl rfl rfl

/-! ### All commands -/

theorem uncertaintyLaw_powerOn (w : BitVec 2) (b : Bool) (s : State) :
    UncertaintyLaw (powerOn w b s) := by
  rw [uncertaintyLaw_iff]
  refine ⟨⟨?_, ?_, ?_⟩, ⟨?_, ?_, ?_⟩, ?_⟩ <;>
    simp [powerOn, resetBlocks, State.reset, resetHou, noWires, NoFreeRun, uMax]

theorem uncertaintyLaw_lineReset (s : State) : UncertaintyLaw (lineReset s) := by
  rw [uncertaintyLaw_iff]
  refine ⟨⟨?_, ?_, ?_⟩, ⟨?_, ?_, ?_⟩, ?_⟩ <;>
    simp [lineReset, lineResetHou, resetHou, noWires, NoFreeRun, uMax]

theorem historyOk_resetHou : HistoryOk resetHou := by
  simp [HistoryOk, resetHou, defaultHoldConfig]

theorem historyOk_lineResetHou {h : Hou} (hh : HistoryOk h) : HistoryOk (lineResetHou h) :=
  ⟨hh.1, historyOk_resetHou.2⟩

theorem countWarmUp_houIn (s : State) : (countWarmUp s).wires.houIn = s.wires.houIn := by
  unfold countWarmUp
  dsimp only
  exact ite_cases (P := fun t : State => t.wires.houIn = s.wires.houIn) rfl
    (ite_cases (P := fun t : State => t.wires.houIn = s.wires.houIn) rfl rfl)

theorem settleLabel_houIn (s : State) : (settleLabel s).wires.houIn = s.wires.houIn := by
  simp only [settleLabel, handIfChanged_eq]
  rfl

theorem secondBegun_houIn (x : Nat) (s : State) : (secondBegun x s).wires.houIn = s.wires.houIn := by
  rw [secondBegun, countWarmUp_houIn, (enterStep_frame _ _).wires_eq (by decide)]
  exact settleLabel_houIn s

/-- The boundary hands the holdover unit no event of the loop. -/
theorem takeSecondBoundary_houIn (s : State) :
    (takeSecondBoundary s).wires.houIn = s.wires.houIn := by
  cases h : s.tsu.due with
  | none => rw [takeSecondBoundary, h]
  | some x =>
    have hd : (boundaryDelivered x s).wires.houIn = s.wires.houIn := by
      refine Eq.trans ?_ (secondBegun_houIn x s)
      have hp : (parkedCompleted x s).wires = (secondBegun x s).wires :=
        (completeAtBoundary_frame s.tsu _ (secondBegun x s)).wires_eq (by decide)
      exact (congrArg Wires.houIn hp :)
    have hp : (if pendingValue s.tsu = 0 then boundaryDelivered x s
        else pruneLog (boundaryDelivered x s)).wires.houIn = s.wires.houIn :=
      ite_cases (P := fun t : State => t.wires.houIn = s.wires.houIn) hd hd
    rw [takeSecondBoundary_eq h]
    refine ite_cases (P := fun t : State => t.wires.houIn = s.wires.houIn) ?_ hp
    rw [(resumePorts_frame _).wires_eq (by decide)]
    exact hp

theorem takeWarmUpEnd_houIn (s : State) : (takeWarmUpEnd s).wires.houIn = s.wires.houIn := by
  unfold takeWarmUpEnd
  split
  · dsimp only
    rw [review_wires]
    rfl
  · rfl

/-- No command hands the holdover unit a change to FREE-RUN. -/
theorem exec_noFreeRun {c : Instr} {s t : State} (hs : NoFreeRun s.wires.houIn)
    (h : exec c s = .next t) : NoFreeRun t.wires.houIn := by
  cases hc : movesWarmUp c with
  | false => exact (exec_wiresPlain h hc).2 hs
  | true =>
    cases c <;> simp [movesWarmUp] at hc <;> cases h
    · exact fun _ _ => List.not_mem_nil
    · exact fun _ _ => List.not_mem_nil
    · rw [takeSecondBoundary_houIn]; exact hs
    · rw [takeWarmUpEnd_houIn]; exact hs

theorem exec_uncertaintyLaw {c : Instr} {s t : State} (hs : UncertaintyLaw s)
    (h : exec c s = .next t) : UncertaintyLaw t := by
  by_cases hr : ∃ w b, c = .powerOnReset w b
  · obtain ⟨w, b, rfl⟩ := hr
    cases h; exact uncertaintyLaw_powerOn w b s
  by_cases hl : c = .lineReset
  · subst hl; cases h; exact uncertaintyLaw_lineReset s
  obtain ⟨hu, hset, hw⟩ := (uncertaintyLaw_iff s).mp hs
  have hsame : t.hou = s.hou → UOk t.hou ∧ HouSettled t.hou := fun he => he ▸ ⟨hu, hset⟩
  refine (uncertaintyLaw_iff t).mpr (and_assoc.mp ⟨?_, exec_noFreeRun hw h⟩)
  by_cases hb : Block.hou ∈ footprint c
  · obtain he | ⟨k, hk, he⟩ := exec_houSettles_of_mem h hb (fun w b hc => hr ⟨w, b, hc⟩) hl
    · exact hsame he
    · rw [he]
      exact ⟨uOk_derived (uOk_of_next hu hw hk), houSettled_derived k⟩
  · exact hsame ((exec_frame h).hou_eq hb)

theorem exec_historyOk {c : Instr} {s t : State} (hs : HistoryOk s.hou) (h : exec c s = .next t) :
    HistoryOk t.hou := by
  by_cases hr : ∃ w b, c = .powerOnReset w b
  · obtain ⟨w, b, rfl⟩ := hr
    cases h; exact historyOk_resetHou
  by_cases hl : c = .lineReset
  · subst hl; cases h; exact historyOk_lineResetHou hs
  by_cases hb : Block.hou ∈ footprint c
  · obtain he | ⟨k, hk, he⟩ := exec_houSettles_of_mem h hb (fun w b hc => hr ⟨w, b, hc⟩) hl
    · rw [he]; exact hs
    · rw [he]; exact historyOk_derived (historyOk_of_next hs hk)
  · rw [(exec_frame h).hou_eq hb]; exact hs

/-- Settles O6: every event of the holdover unit keeps the ranges and settles class and conditions, and
the loop never tells it of a change to FREE-RUN. -/
theorem stepKeepsUncertaintySound : Obligations.StepKeepsUncertaintySound :=
  ⟨step_keeps (fun _ _ h => h) fun _ _ _ hs h => exec_uncertaintyLaw hs h,
    step_keeps (fun _ _ h => h) fun _ _ _ hs h => exec_historyOk hs h⟩

end Sys2Proof.Machine
end

section
/-! PROOFS. Selection: the selected reference is a candidate, none is selected in warm-up or forced
holdover, and FORCE-INEFFECTIVE is settled (R70, R71, R73, R76). -/

namespace Sys2Proof.Safety

open Sys2Proof.Machine Config

/-! ### The law and the review -/

theorem isCandidate_iff (q : Qsu) (r : Ref) : isCandidate q.refs[r] = true ↔ Candidate q r := by
  simp [isCandidate, Candidate, and_assoc]

/-- The law depends on the QSU and on warm-up alone, and warm-up may end. -/
theorem SelectionLaw.same {s t : State} (h : SelectionLaw s) (hq : t.qsu = s.qsu)
    (hw : Warming t → Warming s) : SelectionLaw t := by
  obtain ⟨hc, hn, hf⟩ := h
  rw [SelectionLaw, hq]
  exact ⟨hc, fun h' => hn (h'.imp_left hw), hf⟩

theorem warming_of_eq {s t : State} (hc : t.tsu.warmCount = s.tsu.warmCount)
    (he : t.wires.warmEnd = s.wires.warmEnd) : Warming t → Warming s := by
  rw [Warming, hc, he]
  exact id

/-- A review meets the law outright (R71, R73). -/
theorem selectionLaw_review (f : Option Ref) (s : State) : SelectionLaw (review f s) := by
  have hw : Warming (review f s) → Warming s :=
    warming_of_eq (by rw [review_tsu]) (by rw [review_wires])
  have hcand := fun r => reviewResult_candidate (w := inWarmUp s) (q := s.qsu) (r := r)
  rw [SelectionLaw, review_settles]
  refine ⟨fun r hr => (isCandidate_iff s.qsu r).mp (hcand r hr).1, fun h => ?_, ?_⟩
  · cases hsel : reviewResult (inWarmUp s) s.qsu with
    | none => rfl
    | some r =>
      obtain ⟨-, hwarm, hhold⟩ := hcand r hsel
      obtain h | h := h
      · simp [(inWarmUp_iff s).mpr (hw h)] at hwarm
      · simp [hhold] at h
  · simp [Option.isSome_iff_ne_none]

/-- A change of an entry's other fields. -/
theorem SelectionLaw.updRef {s : State} (h : SelectionLaw s) (r : Ref) {f : RefEntry → RefEntry}
    (hs : ∀ e, (f e).state = e.state) (hp : ∀ e, (f e).cfg.priority = e.cfg.priority) :
    SelectionLaw (s.updRef r f) := by
  obtain ⟨hc, hn, hf⟩ := h
  refine ⟨fun x hx => ?_, hn, hf⟩
  simp only [State.updRef, State.setQsu_qsu, updAt_get]
  split
  · rename_i hr; subst hr
    rw [hs, hp]
    exact hc _ hx
  · exact hc _ hx

/-! ### The reference state machine -/

theorem enterEntry_rest (st : RefState) (c : Option Cause) (e : RefEntry) :
    (enterEntry st c e).state = st ∧ (enterEntry st c e).cfg = e.cfg := by
  unfold enterEntry
  split <;> exact ⟨rfl, rfl⟩

theorem setRefState_qsu (r : Ref) (st : RefState) (c : Option Cause) (s : State) :
    (setRefState r st c s).qsu = (s.updRef r (enterEntry st c)).qsu := handIfChanged_qsu ..

/-- A change of state that neither enters nor leaves QUALIFIED keeps the law: the selected reference is
QUALIFIED, so it stays so or is another one. -/
theorem SelectionLaw.setRefState {s : State} (h : SelectionLaw s) (r : Ref) (st : RefState)
    (c : Option Cause) (hq : s.qsu.refs[r].state = .qualified ↔ st = .qualified) :
    SelectionLaw (setRefState r st c s) := by
  obtain ⟨hc, hn, hf⟩ := h
  have hlaw : SelectionLaw (s.updRef r (enterEntry st c)) := by
    refine ⟨fun x hx => ?_, hn, hf⟩
    obtain ⟨hst, hpri⟩ := hc x hx
    simp only [State.updRef, State.setQsu_qsu, updAt_get]
    split
    · rename_i hr; subst hr
      rw [(enterEntry_rest ..).1, (enterEntry_rest ..).2]
      exact ⟨hq.mp hst, hpri⟩
    · exact ⟨hst, hpri⟩
  refine hlaw.same (setRefState_qsu ..) (warming_of_eq ?_ ?_)
  · rw [setRefState_tsu]; rfl
  · rw [Machine.setRefState, handIfChanged_eq]

theorem SelectionLaw.enterState {s : State} (h : SelectionLaw s) (r : Ref) (st : RefState)
    (c : Option Cause) : SelectionLaw (enterState r st c s) := by
  unfold Machine.enterState
  dsimp only
  split
  · rename_i hq
    refine h.setRefState r st c ?_
    simpa only [beq_eq_beq, beq_iff_eq] using Bool.eq_iff_iff.mp (beq_iff_eq.mp hq)
  · exact selectionLaw_review ..

theorem SelectionLaw.advanceRef {s : State} (h : SelectionLaw s) (r : Ref) (j : Option Cause) :
    SelectionLaw (advanceRef r j s) := by
  have hu : ∀ f : RefEntry → RefEntry, (∀ e, (f e).state = e.state) →
      (∀ e, (f e).cfg.priority = e.cfg.priority) → SelectionLaw (s.updRef r f) := fun _ => h.updRef r
  unfold Machine.advanceRef
  dsimp only
  split
  · exact h
  · split
    · have hq := hu (fun e => { e with qualifyCount := e.qualifyCount + 1 }) (fun _ => rfl) fun _ => rfl
      exact ite_cases (hq.enterState ..) hq
    · exact h.enterState ..
  · split
    · exact hu _ (fun _ => rfl) fun _ => rfl
    · have hq := hu (fun e => { e with badCount := e.badCount + 1 }) (fun _ => rfl) fun _ => rfl
      exact ite_cases (hq.enterState ..) hq
  · exact ite_cases (hu _ (fun _ => rfl) fun _ => rfl) (ite_cases (h.enterState ..) h)

theorem SelectionLaw.completeNow {s : State} (h : SelectionLaw s) (n : Slot) (c : Completion) :
    SelectionLaw (completeNow n c s) :=
  h.same (completeNow_qsu ..) (warming_of_eq (by rw [completeNow_tsu]) (by rw [completeNow_wires]))

end Sys2Proof.Safety

namespace Sys2Proof.Machine

open Sys2Proof.Safety Config

theorem selectionLaw_judgeArrival {s : State} (m : RawMeas) (h : SelectionLaw s) :
    SelectionLaw (judgeArrival m s) := by
  unfold judgeArrival
  dsimp only
  have ha := (h.updRef m.ref (f := fun e => { e with last := some (lastOf m (judge s m)) })
    (fun _ => rfl) fun _ => rfl).advanceRef m.ref (judge s m)
  exact ite_cases h (ite_cases (ha.same rfl id) ha)

theorem selectionLaw_takeArrival {s : State} (r : Ref) (h : SelectionLaw s) :
    SelectionLaw (takeArrival r s) := by
  unfold takeArrival
  split
  · exact h
  · exact selectionLaw_judgeArrival _ (h.same rfl id)

theorem selectionLaw_takeVerdict {s : State} (h : SelectionLaw s) : SelectionLaw (takeVerdict s) := by
  unfold takeVerdict
  split
  · exact h
  · rename_i rest _
    have hv : SelectionLaw (s.setWires { s.wires with verdicts := rest }) := h.same rfl id
    exact ite_cases (hv.enterState ..) hv

theorem selectionLaw_takeLineChangeQsu {s : State} (l : LineId) (level : Bool) (h : SelectionLaw s) :
    SelectionLaw (takeLineChangeQsu l level s) := by
  have hq : SelectionLaw (s.setQsu { s.qsu with lineOk := s.qsu.lineOk.set l level }) := h
  unfold takeLineChangeQsu
  dsimp only
  exact ite_cases h (ite_cases hq (hq.enterState ..))

theorem selectionLaw_takeWarmUpEnd {s : State} (h : SelectionLaw s) :
    SelectionLaw (takeWarmUpEnd s) := ite_cases (selectionLaw_review ..) h

/-! ### Requests -/

theorem selectionLaw_takeConfigureReference {s : State} (n : Slot) (p : Params) (h : SelectionLaw s) :
    SelectionLaw (takeConfigureReference n p s) := by
  unfold takeConfigureReference
  split
  · exact h.completeNow ..
  · split
    · exact h.completeNow ..
    · exact (selectionLaw_review ..).completeNow ..

theorem selectionLaw_takeSetPriority {s : State} (n : Slot) (p : Params) (h : SelectionLaw s) :
    SelectionLaw (takeSetPriority n p s) := by
  unfold takeSetPriority
  split
  · exact (selectionLaw_review ..).completeNow ..
  · exact h.completeNow ..

theorem selectionLaw_takeDeclareReference {s : State} (n : Slot) (p : Params) (h : SelectionLaw s) :
    SelectionLaw (takeDeclareReference n p s) := by
  have hd : ∀ r v, SelectionLaw (declareRef r v s) := fun r v => by
    have hu : SelectionLaw (s.updRef r fun e => { e with declaredValid := v }) :=
      h.updRef r (fun _ => rfl) fun _ => rfl
    exact ite_cases h (ite_cases hu (hu.enterState ..))
  unfold takeDeclareReference
  split
  · exact (hd _ _).completeNow ..
  · exact h.completeNow ..

theorem selectionLaw_takeSelectMode {s : State} (n : Slot) (p : Params) (h : SelectionLaw s) :
    SelectionLaw (takeSelectMode n p s) := by
  unfold takeSelectMode
  split
  · exact (selectionLaw_review ..).completeNow ..
  · exact h.completeNow ..

theorem selectionLaw_takeHoldoverControl {s : State} (n : Slot) (p : Params) (h : SelectionLaw s) :
    SelectionLaw (takeHoldoverControl n p s) := by
  have hf : ∀ v, SelectionLaw (setForcedHoldover v s) := fun v =>
    ite_cases h (selectionLaw_review ..)
  exact ite_cases (ite_cases (h.completeNow ..) ((hf _).completeNow ..))
    (ite_cases ((hf _).completeNow ..) (h.completeNow ..))

/-! ### Warm-up -/

/-- Only a reset begins warm-up: the boundary counts it down and raises its end (R16, R17). -/
theorem countWarmUp_warming (s : State) : Warming (countWarmUp s) → Warming s := by
  intro h
  unfold countWarmUp at h
  split at h
  · exact h
  · exact .inl (by omega)

theorem settleLabel_warming (s : State) : Warming (settleLabel s) → Warming s := by
  refine warming_of_eq (settleLabel_steady s).1 ?_
  simp only [settleLabel, handIfChanged_eq]
  rfl

theorem secondBegun_warming (x : Nat) (s : State) : Warming (secondBegun x s) → Warming s := by
  intro h
  have he := countWarmUp_warming _ h
  refine settleLabel_warming s (warming_of_eq ?_ ?_ he)
  · exact (enterStep_steady _ _).1.trans (tsuSteady_startSecond _ _).1
  · rw [(enterStep_frame _ _).wires_eq (by decide)]
    rfl

theorem takeSecondBoundary_warming (s : State) : Warming (takeSecondBoundary s) → Warming s := by
  cases h : s.tsu.due with
  | none => rw [takeSecondBoundary, h]; exact id
  | some x =>
    have hd : Warming (boundaryDelivered x s) → Warming s := by
      have hp := completeAtBoundary_frame s.tsu (secondBegun x s).tsu.label (secondBegun x s)
      have ht := hp.tsu_eq (by decide)
      have hw := hp.wires_eq (by decide)
      exact fun h' => secondBegun_warming x s (warming_of_eq (congrArg Tsu.warmCount ht)
        (congrArg Wires.warmEnd hw) (by exact h'))
    have hp : Warming (if pendingValue s.tsu = 0 then boundaryDelivered x s
        else pruneLog (boundaryDelivered x s)) → Warming s :=
      ite_cases (P := fun t : State => Warming t → Warming s) hd hd
    rw [takeSecondBoundary_eq h]
    refine ite_cases (P := fun t : State => Warming t → Warming s) (fun h' => hp ?_) hp
    have hr := resumePorts_frame (if pendingValue s.tsu = 0 then boundaryDelivered x s
      else pruneLog (boundaryDelivered x s))
    exact warming_of_eq (by rw [hr.tsu_eq (by decide)]) (by rw [hr.wires_eq (by decide)]) h'

theorem exec_warming {c : Instr} {s t : State} (h : exec c s = .next t)
    (hc : movesWarmUp c = false) : Warming t → Warming s := by
  refine warming_of_eq ?_ (exec_wiresPlain h hc).1
  cases hf : writesF c with
  | true =>
    obtain ⟨w, b, rfl⟩ | rfl | hw := writesF_cases hf
    · cases hc
    · cases hc
    · rw [(exec_loopWrote h hw).1]
  | false => exact (exec_tsuSteady h hf (by rintro rfl; cases hc)).1

/-! ### All commands -/

theorem selectionLaw_of_reset {t : State} (l : Vector Bool 2)
    (h : t.qsu = { resetQsu with lineOk := l }) : SelectionLaw t := by
  rw [SelectionLaw, h]
  exact ⟨nofun, fun _ => rfl, nofun, fun h => absurd rfl h.1⟩

theorem exec_selectionLaw_of_mem {c : Instr} {s t : State} (hs : SelectionLaw s)
    (h : exec c s = .next t) (hb : Block.qsu ∈ footprint c) : SelectionLaw t := by
  have hunit : SelectionLaw (s.setXu { s.xu with unit := none }) := hs
  cases c <;> simp [footprint] at hb <;> cases h
  case powerOnReset => exact selectionLaw_of_reset s.qsu.lineOk rfl
  case lineReset => exact selectionLaw_of_reset s.qsu.lineOk rfl
  case warmUpEnd => exact selectionLaw_takeWarmUpEnd hs
  case lineOkChangeQsu => exact selectionLaw_takeLineChangeQsu _ _ hs
  case measurementArrival => exact selectionLaw_takeArrival _ hs
  case jumpVerdict => exact selectionLaw_takeVerdict hs
  case configureReference =>
    exact ite_cases hs (takeRequest_cases hs fun n p => selectionLaw_takeConfigureReference n p hunit)
  case setPriority =>
    exact takeRequest_cases hs fun n p => selectionLaw_takeSetPriority n p hunit
  case declareReference =>
    exact takeRequest_cases hs fun n p => selectionLaw_takeDeclareReference n p hunit
  case selectMode =>
    exact takeRequest_cases hs fun n p => selectionLaw_takeSelectMode n p hunit
  case holdoverControl =>
    exact takeRequest_cases hs fun n p => selectionLaw_takeHoldoverControl n p hunit

theorem exec_selectionLaw {c : Instr} {s t : State} (hs : SelectionLaw s) (h : exec c s = .next t) :
    SelectionLaw t := by
  by_cases hb : Block.qsu ∈ footprint c
  · exact exec_selectionLaw_of_mem hs h hb
  · refine hs.same ((exec_frame h).qsu_eq hb) ?_
    by_cases h2 : c = .secondBoundary
    · subst h2; cases h; exact takeSecondBoundary_warming s
    · refine exec_warming h ?_
      cases c <;> simp [footprint] at hb <;> simp at h2 <;> rfl

/-- Settles O5: a review meets the law outright, every change of a state into or out of QUALIFIED runs
one, and warm-up begins at a reset alone. -/
theorem stepKeepsSelectionSound : Obligations.StepKeepsSelectionSound :=
  step_keeps (fun _ _ h => h) fun _ _ _ hs h => exec_selectionLaw hs h

end Sys2Proof.Machine
end

section
/-! PROOFS. The step, and the three resets. -/

namespace Sys2Proof.Machine

open Sys2Proof.Safety Config

/-- Settles O1, by the two branches of the step. -/
theorem stepTakesTheFrontCommand : Obligations.StepTakesTheFrontCommand := by
  intro s
  refine ⟨fun c rest h => ?_, fun h => ?_⟩ <;> rw [step, h]

/-- Settles O2: the reset values meet each law. -/
theorem resetMeetsTheLaws : Obligations.ResetMeetsTheLaws :=
  ⟨(outputsSettled_iff _).mpr ⟨linesSettled_resetXu, pinsOk_resetAlu⟩, queueExact_resetXu,
    selectionLaw_of_reset resetQsu.lineOk rfl, uncertaintyLaw_powerOn 0 false State.reset,
    historyOk_resetHou, frequencyLaw_powerOn 0 false State.reset,
    ⟨(by decide : 0 < psPerSecond), (by decide : 0 < residueUnit), Nat.zero_le _⟩,
    pkuBounded_resetPku, claimsMatch_resetPtu, aluAgrees_resetAlu, portsQuiet_resetPtu⟩

/-! ### Power-on -/

theorem replayed_warmTime (w : BitVec 2) : replayed (warmTime w) false =
    if w = 0 then [⟨13, true⟩] else [⟨13, true⟩, ⟨12, true⟩] := by
  revert w; decide

/-- Settles O11: the fields that POWER_ON_RESET sets, read off. -/
theorem powerOnResetsThePart : Obligations.PowerOnResetsThePart := by
  intro warm start s
  have hrefs : ∀ r : Ref, (powerOn warm start s).qsu.refs[r] = resetRef r := fun r => by
    simp [powerOn, resetBlocks, resetQsu]
  have hconds : (powerOn warm start s).wires = { noWires with
      conds := if warm = 0 then [⟨13, true⟩] else [⟨13, true⟩, ⟨12, true⟩] } := by
    rw [← replayed_warmTime]; rfl
  refine ⟨_, rfl, rfl, rfl, rfl, rfl, rfl, rfl, rfl, rfl, rfl, rfl, rfl, rfl, rfl, rfl, rfl, ?_, ?_, ?_, ?_,
    hrefs, rfl, rfl, rfl, rfl, rfl, rfl, rfl, rfl, rfl, rfl, rfl, rfl, rfl, hconds, rfl, rfl⟩ <;>
  · rintro rfl; rfl

/-! ### Line reset -/

/-- A clamp changes exactly the values beyond its bound. -/
theorem clampAbs_ne_iff (x : Int) (b : Nat) : (clampAbs x b != x) = decide (b < x.natAbs) := by
  unfold clampAbs
  rw [Bool.eq_iff_iff]
  simp only [bne_iff_ne, decide_eq_true_eq]
  omega

/-- The line-reset base of a stack that holds a level, by the default configuration (R111). -/
theorem lineResetFreq_of_fill {h : Hou} (hf : h.fill ≠ 0) {base : Int}
    (hb : base = roundDiv ((h.levels.toList.take h.fill).sum) h.fill
      + roundDiv (clampAbs (h.dLearn.getD 0) 5000 * ((h.fill * 300 : Nat) : Int)) 172800) :
    lineResetFreq h = (clampAbs base 10000000, decide (10000000 < base.natAbs)) := by
  have hmean : meanOf (lineResetHou h) 0 = roundDiv ((h.levels.toList.take h.fill).sum) h.fill :=
    if_neg hf
  have haging : agingNow (lineResetHou h) = clampAbs (h.dLearn.getD 0) 5000 := rfl
  have hbase : lineResetBase (lineResetHou h) = some base := by
    rw [lineResetBase, if_neg (by exact hf), hmean, haging, hb]
    rfl
  simp only [lineResetFreq, hbase, defaultLoopConfig, clampAbs_ne_iff]

theorem lineResetFreq_of_empty {h : Hou} (hf : h.fill = 0) : lineResetFreq h = (0, false) := by
  have hbase : lineResetBase (lineResetHou h) = none := if_pos hf
  simp only [lineResetFreq, hbase]

/-- Settles O12: F and I start from the kept stack's base, the rest of the fields is read off. -/
theorem lineResetKeepsTheHistory : Obligations.LineResetKeepsTheHistory := by
  intro s
  have hrefs : ∀ r : Ref, (lineReset s).qsu.refs[r] = resetRef r := fun r => by
    simp [lineReset, resetBlocks, resetQsu]
  refine ⟨lineReset s, rfl, rfl, rfl, rfl, rfl, rfl, rfl, rfl, rfl, rfl, rfl, rfl, rfl, rfl, rfl, rfl, rfl,
    fun hf => ?_, fun base hf hb => ?_, fun hf => ?_, rfl, hrefs, rfl, rfl, rfl, rfl, rfl, rfl, rfl, rfl, rfl⟩
  · exact congrArg Prod.fst (lineResetFreq_of_empty hf)
  · have h := lineResetFreq_of_fill hf hb
    refine ⟨congrArg Prod.fst h, ?_⟩
    have h2 : (lineReset s).lpu.freqLimit = decide (10000000 < base.natAbs) := congrArg Prod.snd h
    rw [h2, decide_eq_true_iff]
  · exact congrArg Prod.snd (lineResetFreq_of_empty hf)

/-! ### Exchange reset -/

theorem exchangeReset_wires (s : State) : (exchangeReset s).wires = { s.wires with
    conds := if s.tsu.leap = none then s.wires.conds else s.wires.conds ++ [⟨16, false⟩] } := by
  have h : (exchangeReset s).wires = (setLeap none (resetExchangeUnit s)).wires := rfl
  have hc : s.wires.conds ++ handed codeLeap s.tsu.leap.isSome false
      = if s.tsu.leap = none then s.wires.conds else s.wires.conds ++ [⟨16, false⟩] := by
    cases hl : s.tsu.leap with
    | none => simp [handed]
    | some l => rfl
  rw [h, setLeap, handIfChanged_eq, ← hc]
  rfl

theorem exchangeReset_tsu_eq (s : State) : (exchangeReset s).tsu = { s.tsu with
    setTime := none, leap := none, step := (exchangeReset s).tsu.step } := by
  have h : (setLeap none (resetExchangeUnit s)).tsu = { s.tsu with leap := none } :=
    handIfChanged_tsu ..
  rw [exchangeReset_tsu, resetHostTime]
  simp only [State.setTsu_tsu, h]

/-- A LOOP step stays pending, a HOST step goes (R20). -/
theorem exchangeReset_step_loop {s : State} {v : Int} (hv : s.tsu.step = some (.loop v)) :
    (exchangeReset s).tsu.step = s.tsu.step := by
  have h : (setLeap none (resetExchangeUnit s)).tsu.step = some (.loop v) := by
    rw [setLeap, handIfChanged_tsu]; exact hv
  rw [exchangeReset_tsu, resetHostTime]
  simp only [State.setTsu_tsu, h, hv]

theorem exchangeReset_step_host {s : State} (hv : ∀ v, s.tsu.step ≠ some (.loop v)) :
    (exchangeReset s).tsu.step = none := by
  have h : (setLeap none (resetExchangeUnit s)).tsu.step = s.tsu.step := by
    rw [setLeap, handIfChanged_tsu]; rfl
  rw [exchangeReset_tsu, resetHostTime]
  simp only [State.setTsu_tsu, h]

theorem exchangeReset_board (s : State) :
    (exchangeReset s).pku = { s.pku with board := Vector.replicate 32 emptySample } := by
  simp [exchangeReset, resetPortsExchange, resetBoard, resetHostTime, resetExchangeUnit, setLeap]

/-- Settles O13, block by block. -/
theorem exchangeResetLeavesTiming : Obligations.ExchangeResetLeavesTiming := by
  intro s
  have htsu := exchangeReset_tsu_eq s
  refine ⟨_, rfl, exchangeReset_xu s, fun n => ?_, ?_, fun p => ?_, fun a => ?_, ?_, ?_, fun v hv => ?_,
    fun hv => ?_, exchangeReset_wires s, exchangeReset_frame s⟩
  · rw [exchangeReset_board]; simp
  · rw [exchangeReset_board]
  · rw [exchangeReset_ptu]; simp
  · rw [exchangeReset_ptu]; simp
  · rw [exchangeReset_ptu]
  · rw [exchangeReset_ptu]
  · rw [htsu, exchangeReset_step_loop hv]
  · rw [htsu, exchangeReset_step_host hv]

end Sys2Proof.Machine
end

section
/-! PROOFS. Host access: the record latch, host writes, the posting queue and the request unit, and the
epoch report. -/

namespace Sys2Proof.Machine

open Sys2Proof.Safety Config

/-! ### Host reads and the record latch (R165, R176) -/

/-- Quotient and remainder of a place in a row of areas of one width. -/
theorem place_in_areas {a base n w x j : Nat} (ha : a = base + j) (hb : base = n + w * x) (hj : j < w) :
    (a - n) / w = x ∧ (a - n) % w = j := by
  subst hb ha
  have hw : 0 < w := by omega
  rw [show n + w * x + j - n = j + w * x by omega, Nat.add_mul_div_left _ _ hw,
    Nat.add_mul_mod_self_left, Nat.div_eq_of_lt hj, Nat.mod_eq_of_lt hj]
  omega

/-- The word at place `i` of a record's area. -/
theorem locate_record {k : RecordId} {i a : Nat} (hi : i < recordLength k)
    (ha : a = recordBase k + i) : locate a = some (k, i) := by
  unfold locate
  cases k with
  | refStatus r =>
    have hr := r.isLt
    obtain ⟨hd, hm⟩ := place_in_areas (n := 0x680) (x := r.val) ha rfl hi
    simp only [recordBase, recordLength] at ha hi
    rw [dif_pos (by omega)]
    simp only [hd, hm]
  | loopStatus =>
    simp only [recordBase, recordLength] at ha hi
    rw [dif_neg (by omega), if_pos (by omega), ha, Nat.add_sub_cancel_left]
  | portStatus p =>
    have hp := p.isLt
    obtain ⟨hd, hm⟩ := place_in_areas (n := 0x800) (x := p.val) ha rfl hi
    simp only [recordBase, recordLength] at ha hi
    rw [dif_neg (by omega), if_neg (by omega), dif_pos (by omega)]
    simp only [hd, hm]
  | alarm c =>
    have hc := c.isLt
    obtain ⟨hd, hm⟩ := place_in_areas (n := 0x980) (x := c.val) ha rfl hi
    simp only [recordBase, recordLength] at ha hi
    rw [dif_neg (by omega), if_neg (by omega), dif_neg (by omega), dif_pos (by omega)]
    simp only [hd, hm]
  | page p =>
    have hp := p.isLt
    obtain ⟨hd, hm⟩ := place_in_areas (n := 0xB00) (x := p.val) ha rfl hi
    simp only [recordBase, recordLength] at ha hi
    rw [dif_neg (by omega), if_neg (by omega), dif_neg (by omega), dif_neg (by omega),
      dif_pos (by omega)]
    simp only [hd, hm]
  | readout p =>
    have hp := p.isLt
    obtain ⟨hd, hm⟩ := place_in_areas (n := 0xC00) (x := p.val) ha rfl hi
    simp only [recordBase, recordLength] at ha hi
    rw [dif_neg (by omega), if_neg (by omega), dif_neg (by omega), dif_neg (by omega),
      dif_neg (by omega), dif_pos (by omega)]
    simp only [hd, hm]

section
variable {s : State} {addr : WordAddr} {k : RecordId} {i : Nat}

/-- The first word latches its record. -/
theorem hostRead_first (hi : 0 < recordLength k) (ha : addr.toNat = recordBase k) :
    hostRead addr s = { s with
      xu := { s.xu with latch := some ⟨k, recordWords k s⟩ }
      readData := (recordWords k s).getD 0 0 } := by
  simp only [hostRead, locate_record hi ha, if_pos]
  rfl

/-- A further word of the latched record comes from the copy, and the last one releases the latch. -/
theorem hostRead_latched {copy : List Word} (hi : i < recordLength k) (h0 : 0 < i)
    (ha : addr.toNat = recordBase k + i) (hl : s.xu.latch = some ⟨k, copy⟩) :
    hostRead addr s = { s with
      xu := { s.xu with latch := if i + 1 = recordLength k then none else some ⟨k, copy⟩ }
      readData := copy.getD i 0 } := by
  have hc : latched k s = some copy := by simp only [latched, hl, if_pos]
  simp only [hostRead, locate_record hi ha, if_neg h0.ne', hc]
  split
  · rfl
  · rw [← hl]; rfl

/-- A further word of a record that is not latched is live. -/
theorem hostRead_live (hi : i < recordLength k) (h0 : 0 < i)
    (ha : addr.toNat = recordBase k + i) (hl : ∀ c, s.xu.latch = some c → c.record ≠ k) :
    hostRead addr s = { s with readData := (recordWords k s).getD i 0 } := by
  have hc : latched k s = none := by
    unfold latched
    split
    · rename_i c h; exact if_neg (hl c h)
    · rfl
  simp only [hostRead, locate_record hi ha, if_neg h0.ne', hc]
  rfl

end

theorem storeWord_latch {s : State} (addr : WordAddr) (v : Word) (h : s.xu.latch = none) :
    (storeWord addr v s).xu.latch = none := by
  have hslot : ∀ n f, (s.updSlot n f).xu.latch = none := fun _ _ => h
  refine storeWord_cases (P := fun t : State => t.xu.latch = none) addr v (fun c w => ?_)
    (fun n w => ?_) (fun n w => ?_) (fun c w => ?_) ?_ h
  · refine ite_cases (P := fun t : State => t.xu.latch = none) (by rw [ackXu_eq]; exact h)
      (ite_cases (P := fun t : State => t.xu.latch = none) ?_ h)
    rw [State.setXu_xu, routeXu_frame]
    exact h
  · exact ite_cases (P := fun t : State => t.xu.latch = none)
      (ite_cases (P := fun t : State => t.xu.latch = none)
        (ite_cases (P := fun t : State => t.xu.latch = none) h h)
        (ite_cases (P := fun t : State => t.xu.latch = none)
          (ite_cases (P := fun t : State => t.xu.latch = none) h h) h)) (hslot _ _)
  · refine ite_cases (P := fun t : State => t.xu.latch = none)
      (ite_cases (P := fun t : State => t.xu.latch = none) ?_ h) h
    refine ite_cases (P := fun t : State => t.xu.latch = none) h ?_
    rw [bump_latch]
    split <;> exact h
  · rw [(writeAlarm_frame c w v s).xu_eq (by decide)]; exact h
  · rw [exchangeReset_xu]; rfl

/-- Every host write and every reset releases the latch (R177). -/
theorem exec_releases_latch {c : Instr} {s t : State} (h : exec c s = .next t)
    (hc : isHostWrite c = true ∨ isReset c = true) : t.xu.latch = none := by
  have hr : (releaseLatch s).xu.latch = none := rfl
  cases c <;> simp [isHostWrite, isReset] at hc <;> cases h
  case powerOnReset => rfl
  case lineReset => rfl
  case exchangeReset => rw [exchangeReset_xu]; rfl
  case hostWrite => exact storeWord_latch _ _ hr
  case sampleReady =>
    refine ite_cases (P := fun t : State => t.xu.latch = none) hr ?_
    rw [bump_latch]
    split <;> exact hr
  case alarmAck => rfl
  case requestPosted => exact ite_cases (P := fun t : State => t.xu.latch = none) hr hr
  case requestSlotFree => exact ite_cases (P := fun t : State => t.xu.latch = none) hr hr
  case attentionAck => rw [State.setXu_xu, ackXu_eq]; rfl
  case attentionRoute => rw [State.setXu_xu, routeXu_frame]; rfl

theorem takeHead_latch (s : State) : (takeHead s).xu.latch = s.xu.latch := by
  unfold takeHead
  split
  · dsimp only
    refine ite_cases (P := fun t : State => t.xu.latch = s.xu.latch) rfl ?_
    exact complete_latch ..
  · rfl

theorem takeEpoch_latch (s : State) : (takeEpoch s).xu.latch = s.xu.latch := by
  unfold takeEpoch
  split <;> rfl

/-- Nothing else touches the latch. -/
theorem exec_keeps_latch {c : Instr} {s t : State} (h : exec c s = .next t)
    (hw : isHostWrite c = false) (hr : isHostRead c = false) (hx : isReset c = false) :
    t.xu.latch = s.xu.latch := by
  by_cases ht : c = .requestTake
  · subst ht; cases h; exact takeHead_latch s
  by_cases he : c = .epochReport
  · subst he; cases h; exact takeEpoch_latch s
  refine (exec_xuPlain h ?_).latch
  simp [actsOnXu, hw, hr, hx, ht, he]

theorem exec_read {c : Instr} {addr : WordAddr} (s : State)
    (hc : c = .readLatchedWord addr ∨ c = .readRecordFirstWord addr) :
    exec c s = .next (hostRead addr s) := by
  obtain rfl | rfl := hc <;> rfl

/-- Settles O10: writes and resets release the latch, reads go through it, no other command touches
it. -/
theorem latchMovesByHostAccessOnly : Obligations.LatchMovesByHostAccessOnly := by
  intro c s t h
  refine ⟨exec_releases_latch h, exec_keeps_latch h, fun addr k i copy hc ha hi => ?_⟩
  obtain rfl : hostRead addr s = t := by
    rw [exec_read s hc] at h
    cases h; rfl
  refine ⟨fun h0 => ?_, fun h0 hlast hl => ?_, fun h0 hl => ?_⟩
  · subst h0
    rw [hostRead_first hi ha]
  · rw [hostRead_latched hi h0 ha hl, if_pos hlast]
  · exact hostRead_live hi h0 ha (by rw [hl]; nofun)

/-! ### Host writes (R165, R168, R40) -/

theorem exec_hostWrite (addr : WordAddr) (v : Word) (s : State) :
    exec (.hostWrite addr v) s = .next (storeWord addr v (releaseLatch s)) := rfl

theorem releaseLatch_eq (s : State) : releaseLatch s = { s with xu := { s.xu with latch := none } } := rfl

/-- Words of a request slot are the XU's (R165). -/
theorem storeWord_slot {addr : WordAddr} {n : Slot} {w : Nat} (v : Word) (s : State) (hw : w < 32)
    (ha : addr.toNat = 0x080 + 32 * n.val + w) : storeWord addr v s = writeSlot n w v s := by
  have hn := n.isLt
  have hdiv : (addr.toNat - 0x080) / 32 = n.val := by omega
  have hmod : (addr.toNat - 0x080) % 32 = w := by omega
  simp only [storeWord, hdiv, hmod]
  rw [dif_neg (by omega), dif_pos (by omega)]

/-- Words of a sample slot are the PKU's (R165). -/
theorem storeWord_sample {addr : WordAddr} {n : SampleSlot} {w : Nat} (v : Word) (s : State)
    (hw : w < 32) (ha : addr.toNat = 0x280 + 32 * n.val + w) :
    storeWord addr v s = writeSample n w v s := by
  have hn := n.isLt
  have hdiv : (addr.toNat - 0x280) / 32 = n.val := by omega
  have hmod : (addr.toNat - 0x280) % 32 = w := by omega
  simp only [storeWord, hdiv, hmod]
  rw [dif_neg (by omega), dif_neg (by omega), dif_pos (by omega)]

theorem updAt_eq_self {α : Type} {n : Nat} (v : Vector α n) (i : Fin n) {f : α → α}
    (h : f v[i] = v[i]) : updAt v i f = v := by
  rw [updAt, h]
  exact Vector.set_getElem_self ..

theorem updSlot_eq_self {s : State} {n : Slot} {f : RequestSlot → RequestSlot}
    (h : f s.xu.slots[n] = s.xu.slots[n]) : s.updSlot n f = s := by
  rw [State.updSlot, updAt_eq_self _ _ h]
  rfl

/-- A parameter word stored at its place. -/
theorem ofFn_set {v : Vector Word 24} {i : Fin 24} {w k : Nat} (hw : w = k + i.val) (x : Word) :
    (Vector.ofFn fun j : Fin 24 => if j.val + k = w then x else v[j]) = v.set i x := by
  refine Vector.ext fun j hj => ?_
  simp only [Vector.getElem_ofFn, Vector.getElem_set, Fin.getElem_fin]
  by_cases h : i.val = j
  · rw [if_pos h, if_pos (by omega)]
  · rw [if_neg h, if_neg (by omega)]

theorem writeSlotWord_of_ne {w : Nat} (v : Word) {q : RequestSlot} (h : q.state ≠ .free) :
    writeSlotWord w v q = q := if_neg h

/-- Code, label and reserved words are not the host's (R168). -/
theorem writeSlotWord_other {w : Nat} (v : Word) (q : RequestSlot) (h : 3 ≤ w ∧ w < 8) :
    writeSlotWord w v q = q := by
  unfold writeSlotWord
  rw [if_neg (by omega : ¬w = 1), if_neg (by omega : ¬w = 2), if_neg (by omega : ¬8 ≤ w)]
  exact ite_self _

theorem writeSlotWord_param {w : Nat} (v : Word) {q : RequestSlot} (hq : q.state = .free) (i : Fin 24)
    (hw : w = 8 + i.val) : writeSlotWord w v q = { q with params := q.params.set i v } := by
  unfold writeSlotWord
  rw [if_pos hq, if_neg (by omega : ¬w = 1), if_neg (by omega : ¬w = 2), if_pos (by omega : 8 ≤ w),
    ofFn_set hw]

/-- A host write to a word of a request slot other than its state word. -/
theorem exec_writeSlotWord {addr : WordAddr} {n : Slot} {w : Nat} (v : Word) (s : State) (h1 : 1 ≤ w)
    (hw : w < 32) (ha : addr.toNat = 0x080 + 32 * n.val + w) : exec (.hostWrite addr v) s =
      .next ((releaseLatch s).updSlot n (writeSlotWord w v)) := by
  rw [exec_hostWrite, storeWord_slot v _ hw ha, writeSlot, if_neg (by omega)]

theorem writeSampleWord_of_ready {w : Nat} (v : Word) {q : Sample} (h : q.state = .ready) :
    writeSampleWord w v q = q := if_pos h

/-- Verdict, take label and reserved words are not the host's (R40). -/
theorem writeSampleWord_other {w : Nat} (v : Word) (q : Sample) (h : 2 ≤ w ∧ w < 6 ∨ 30 ≤ w) :
    writeSampleWord w v q = q := by
  unfold writeSampleWord
  rw [if_neg (by omega : ¬w = 1)]
  have hwords : 6 ≤ w → (Vector.ofFn fun j : Fin 24 => if j.val + 6 = w then v else q.words[j])
      = q.words := fun h6 => by
    refine Vector.ext fun j hj => ?_
    simp only [Vector.getElem_ofFn, Fin.getElem_fin, if_neg (by omega : ¬j + 6 = w)]
  by_cases h6 : 6 ≤ w
  · rw [if_pos h6, hwords h6]; exact ite_self _
  · rw [if_neg h6]; exact ite_self _

theorem writeSampleWord_param {w : Nat} (v : Word) {q : Sample} (hq : q.state = .empty) (i : Fin 24)
    (hw : w = 6 + i.val) : writeSampleWord w v q = { q with words := q.words.set i v } := by
  have hi := i.isLt
  unfold writeSampleWord
  rw [if_neg (by rw [hq]; decide), if_neg (by omega : ¬w = 1), if_pos (by omega : 6 ≤ w),
    ofFn_set hw]

/-- A host write to a word of a sample slot other than its state word. -/
theorem exec_writeSampleWord {addr : WordAddr} {n : SampleSlot} {w : Nat} (v : Word) (s : State)
    (h1 : 1 ≤ w) (hw : w < 32) (ha : addr.toNat = 0x280 + 32 * n.val + w) :
    exec (.hostWrite addr v) s = .next ((releaseLatch s).setPku
      { s.pku with board := updAt s.pku.board n (writeSampleWord w v) }) := by
  rw [exec_hostWrite, storeWord_sample v _ hw ha, writeSample, if_neg (by omega)]
  rfl

/-- A host write at a word that nothing owns for the host (R162, R165). -/
theorem storeWord_discards {addr : WordAddr} {v : Word} (s : State)
    (h : addr.toNat < 16 ∨ (16 ≤ addr.toNat ∧ addr.toNat < 40 ∧ addr.toNat % 4 < 2)
      ∨ (40 ≤ addr.toNat ∧ addr.toNat < 0x080) ∨ (0x680 ≤ addr.toNat ∧ addr.toNat < 0x980)
      ∨ (0x980 ≤ addr.toNat ∧ addr.toNat < 0xAB0 ∧ addr.toNat % 16 ≠ 8)
      ∨ (0xAB0 ≤ addr.toNat ∧ addr.toNat ≠ 0xFFE) ∨ (addr.toNat = 0xFFE ∧ v ≠ 1)) :
    storeWord addr v s = s := by
  unfold storeWord
  dsimp only
  split_ifs with hattn hslot hsample halarm hctl
  · rw [writeAttention, if_neg (by omega), if_neg (by omega)]
  · omega
  · omega
  · rw [writeAlarm, if_neg (by omega)]
  · obtain ⟨ha, hv⟩ := hctl
    have haddr : addr.toNat = 0xFFE := ha
    obtain h | h | h | h | h | h | ⟨-, h⟩ := h
    case inr.inr.inr.inr.inr.inr => exact absurd hv h
    all_goals omega
  · rfl

/-- A state word written with a value that its request slot does not take (R168). -/
theorem writeSlot_state_discards {n : Slot} {v : Word} {s : State}
    (h : 1 < v.toNat ∨ v = 1 ∧ s.xu.slots[n].state ≠ .free ∨ v = 0 ∧ s.xu.slots[n].state ≠ .done) :
    writeSlot n 0 v s = s := by
  rw [writeSlot, if_pos rfl]
  obtain hv | ⟨rfl, hs⟩ | ⟨rfl, hs⟩ := h
  · rw [if_neg (by rintro rfl; exact absurd hv (by decide)),
      if_neg (by rintro rfl; exact absurd hv (by decide))]
  · rw [if_pos rfl, postSlot, if_neg hs]
  · rw [if_neg (by decide), if_pos rfl, freeSlotWrite, if_neg hs]

/-- A state word written with a value that its sample slot does not take (R40). -/
theorem writeSample_state_discards {n : SampleSlot} {v : Word} {s : State}
    (h : v ≠ 1 ∨ s.pku.board[n].state = .ready) : writeSample n 0 v s = s := by
  rw [writeSample, if_pos rfl]
  by_cases hv : v = 1
  · rw [if_pos hv, judgeSlot, if_pos (h.resolve_left (not_not_intro hv))]
  · exact if_neg hv

theorem updSlot_slots_of_eq {s : State} {n : Slot} {f : RequestSlot → RequestSlot} {q : RequestSlot}
    (h : f s.xu.slots[n] = q) : (s.updSlot n f).xu.slots = s.xu.slots.set n q := by
  subst h; rfl

/-- Settles O14: stored where the host owns the word, discarded elsewhere. -/
theorem hostWritesReachTheirOwner : Obligations.HostWritesReachTheirOwner := by
  refine ⟨fun s addr v n w h1 hw ha => ⟨_, exec_writeSlotWord v s h1 hw ha, ?_⟩,
    fun s addr v n w h1 hw ha => ⟨_, exec_writeSampleWord v s h1 hw ha, ?_⟩,
    fun s addr v h => ?_, fun s addr v n ha h => ?_, fun s addr v n ha h => ?_⟩
  · refine ⟨fun hq h => ?_, fun hq h => ?_, fun i hq hi => ?_, fun h => ?_, rfl, ?_⟩
    · exact updSlot_slots_of_eq (by rw [h]; exact if_pos hq)
    · exact updSlot_slots_of_eq (by rw [h]; exact if_pos hq)
    · exact updSlot_slots_of_eq (writeSlotWord_param v hq i hi)
    · have hsame := h.elim (writeSlotWord_of_ne v) (writeSlotWord_other (w := w) v s.xu.slots[n])
      rw [updSlot_eq_self (by exact hsame)]
      rfl
    · simp [KeepsAllBut]
  · refine ⟨fun hq h => ?_, fun i hq hi => ?_, fun h => ?_, rfl, rfl, ?_⟩
    · exact congrArg (s.pku.board.set n ·) (by
        rw [h]; exact (if_neg (by rw [hq]; decide)).trans (if_pos rfl))
    · exact congrArg (s.pku.board.set n ·) (writeSampleWord_param v hq i hi)
    · exact updAt_eq_self _ _
        (h.elim (writeSampleWord_of_ready v) (writeSampleWord_other (w := w) v s.pku.board[n]))
    · simp [KeepsAllBut]
  · rw [exec_hostWrite, storeWord_discards _ h, releaseLatch_eq]
  · rw [exec_hostWrite, storeWord_slot (n := n) (w := 0) v _ (by omega) ha,
      writeSlot_state_discards (by exact h), releaseLatch_eq]
  · rw [exec_hostWrite, storeWord_sample (n := n) (w := 0) v _ (by omega) ha,
      writeSample_state_discards (by exact h), releaseLatch_eq]

/-! ### The request unit (R168 to R171) -/

/-- No class is bumped where the state changes only in slots that do not become DONE. -/
theorem attnBumped_of_no_done {s t : State} (hc : t.xu.attn = s.xu.attn)
    (hx : ∀ n : Slot, t.xu.slots[n].state = .done → s.xu.slots[n].state = .done)
    (ha : t.alu = s.alu) (hq : t.qsu = s.qsu) (hp : t.ptu = s.ptu) : AttnBumped [] s t := by
  refine attnBumped_of_counts (fun _ => 0) (fun c => ?_) fun c => by simp [hc]
  have hslots : ∀ n : Slot,
      decide (s.xu.slots[n].state ≠ .done ∧ t.xu.slots[n].state = .done) = false :=
    fun n => decide_eq_false fun h => h.1 (hx n h.2)
  unfold bumpsShown
  simp only [hslots, ha, hq, hp]
  simp

theorem takeHead_eq {s : State} {n : Slot} {rest : List Slot} (hu : s.xu.unit = none)
    (hq : s.xu.queue = n :: rest) : takeHead s =
      if knownKind s.xu.slots[n].kind then
        { s with xu := { s.xu with
          slots := s.xu.slots.set n { s.xu.slots[n] with state := .taken }
          queue := rest
          unit := some n } }
      else completeNow n .invalid { s with xu := { s.xu with
          slots := s.xu.slots.set n { s.xu.slots[n] with state := .taken }
          queue := rest } } := by
  have hkind : (updAt s.xu.slots n fun q => { q with state := .taken })[n].kind
      = s.xu.slots[n].kind := by rw [updAt_self]
  unfold takeHead
  simp only [hu, hq]
  exact congrArg (fun k => if knownKind k then _ else _) hkind

/-- Settles O57: how requests are queued, returned and taken. -/
theorem requestsAreQueuedAndTaken : Obligations.RequestsAreQueuedAndTaken := by
  refine fun s n => ⟨fun h => congrArg Host.Outcome.next (if_pos h),
    fun h => congrArg Host.Outcome.next (if_neg h), fun h => congrArg Host.Outcome.next (if_pos h),
    fun h => congrArg Host.Outcome.next (if_neg h), fun rest hu hq => ⟨fun hk => ?_, fun hk => ?_⟩⟩
  · have hknown : knownKind s.xu.slots[n].kind = true := decide_eq_true hk
    exact congrArg Host.Outcome.next ((takeHead_eq hu hq).trans (if_pos hknown))
  · have hunknown : ¬knownKind s.xu.slots[n].kind = true := by
      rw [knownKind, decide_eq_true_iff]; omega
    refine ⟨_, congrArg Host.Outcome.next ((takeHead_eq hu hq).trans (if_neg hunknown)), ?_⟩
    generalize hs1 : ({ s with xu := { s.xu with
      slots := s.xu.slots.set n { s.xu.slots[n] with state := .taken }
      queue := rest } } : State) = s1
    have hself : s1.xu.slots[n] = { s.xu.slots[n] with state := .taken } := by
      subst hs1; exact updAt_self s.xu.slots n fun q => { q with state := .taken }
    have htaken : s1.xu.slots[n].state = .taken := by rw [hself]
    obtain ⟨⟨hxu, -⟩, hattn⟩ := completeNow_changes .invalid s1.xu.unit htaken
    have hset : s1.setXu { s1.xu with unit := s1.xu.unit } = s1 := rfl
    rw [hset] at hxu hattn
    have hattn1 : s1.xu.attn = s.xu.attn := by subst hs1; rfl
    refine ⟨?_, fun hd => ?_, by rw [hattn, hattn1], by rw [hattn], ?_⟩
    · have hslots : s1.xu.slots.set n (doneSlot n 5 s1.tsu.label s1)
          = s.xu.slots.set n (doneSlot n 5 s.tsu.label s) := by
        simp only [doneSlot, hself]
        subst hs1
        exact Vector.set_set ..
      refine hxu.trans ?_
      have hcode : Completion.invalid.code = 5 := rfl
      rw [hcode, hslots]
      subst hs1
      rfl
    · refine attnBumped_complete .invalid _ [] htaken hd (attnBumped_of_no_done hattn1 ?_ ?_ ?_ ?_)
      · intro m hm
        by_cases hmn : n = m
        · subst hmn; rw [htaken] at hm; cases hm
        · subst hs1
          have hkeep : (s.xu.slots.set n { s.xu.slots[n] with state := .taken })[m] = s.xu.slots[m] :=
            updAt_ne s.xu.slots (fun q => { q with state := .taken }) hmn
          exact hkeep ▸ hm
      all_goals subst hs1; rfl
    · have hframe := completeNow_frame n .invalid s1
      subst hs1
      exact KeepsAllBut.trans (t := _) (by simp [KeepsAllBut]) hframe

/-! ### The epoch report (R178, R179) -/

/-- Settles O58: the page of the second, under the next EPOCH count. -/
theorem epochReportIsWritten : Obligations.EpochReportIsWritten := by
  intro s b bs v vs ps pss k hb hv hp hk
  obtain rfl : k = pageOf b.label := Fin.ext hk
  refine ⟨_, reportOf b v ps { s with wires :=
    { s.wires with xuBnd := bs, xuValues := vs, xuPorts := pss } }, rfl, ?_⟩
  have he : takeEpoch s = bump clsEpoch { s with
      wires := { s.wires with xuBnd := bs, xuValues := vs, xuPorts := pss }
      xu := { s.xu with pages := s.xu.pages.set (pageOf b.label) (some (reportOf b v ps
        { s with wires := { s.wires with xuBnd := bs, xuValues := vs, xuPorts := pss } })) } } := by
    simp only [takeEpoch, hb, hv, hp]
    rfl
  have hattn : (takeEpoch s).xu.attn[clsEpoch] =
      { s.xu.attn[clsEpoch] with pending := true, count := s.xu.attn[clsEpoch].count + 1 } := by
    rw [he, bump_attn_self]
  refine ⟨by rw [he]; rfl, by rw [hattn]; rfl, rfl, rfl, rfl, rfl, rfl, rfl, rfl, rfl, rfl, rfl,
    fun x => ?_, rfl, rfl, rfl, by rw [hattn], by rw [hattn], ?_, by rw [he]; rfl, by rw [he]; rfl, ?_⟩
  · exact Vector.getElem_map ..
  · rw [he]
    exact attnBumped_bump _ (attnBumped_none rfl rfl rfl rfl fun _ => rfl)
  · rw [he]; simp [KeepsAllBut]

end Sys2Proof.Machine
end

section
/-! PROOFS. Reads: records word by word (R187 to R190), and the words outside the records. -/

namespace Sys2Proof.Machine

open Sys2Proof.Safety Config

/-! ### Words at their places (R181) -/

/-- The words `ws` stand in `l` from place `o`. -/
def StandsAt (l : List Word) (o : Nat) (ws : List Word) : Prop :=
  ∀ j, j < ws.length → l.getD (o + j) 0 = ws.getD j 0

/-- Every field of a layout stands at its place. -/
def LaidOut (l : List Word) : List (Nat × List Word) → Prop
  | [] => True
  | (o, ws) :: rest => StandsAt l o ws ∧ LaidOut l rest

/-- The fields follow one another from place `n` on, within `len` words. -/
def InOrder (len : Nat) : Nat → List (Nat × List Word) → Prop
  | _, [] => True
  | n, (o, ws) :: rest => n ≤ o ∧ o + ws.length ≤ len ∧ InOrder len (o + ws.length) rest

/-- No field covers place `i`. -/
def Uncovered (i : Nat) : List (Nat × List Word) → Prop
  | [] => True
  | (o, ws) :: rest => (i < o ∨ o + ws.length ≤ i) ∧ Uncovered i rest

theorem InOrder.bounds {len n : Nat} {parts : List (Nat × List Word)} (h : InOrder len n parts) :
    ∀ p ∈ parts, n ≤ p.1 ∧ p.1 + p.2.length ≤ len := by
  induction parts generalizing n with
  | nil => nofun
  | cons p rest ih =>
    obtain ⟨hn, hlen, hrest⟩ := h
    intro q hq
    obtain rfl | hq := List.mem_cons.mp hq
    · exact ⟨hn, hlen⟩
    · obtain ⟨h1, h2⟩ := ih hrest q hq
      exact ⟨by omega, h2⟩

theorem layout_getD_of_find {len i : Nat} {parts : List (Nat × List Word)} {p : Nat × List Word}
    (hi : i < len) (h : parts.find? (fun p => p.1 ≤ i && i < p.1 + p.2.length) = some p) :
    (layout len parts).getD i 0 = p.2.getD (i - p.1) 0 := by
  rw [List.getD_eq_getElem?_getD, layout, List.getElem?_map, List.getElem?_range hi]
  simp only [Option.map_some, Option.getD_some, h]

theorem layout_getD_of_none {len i : Nat} {parts : List (Nat × List Word)}
    (h : parts.find? (fun p => p.1 ≤ i && i < p.1 + p.2.length) = none) :
    (layout len parts).getD i 0 = 0 := by
  rw [List.getD_eq_getElem?_getD, layout, List.getElem?_map]
  by_cases hi : i < len
  · rw [List.getElem?_range hi]
    simp only [Option.map_some, Option.getD_some, h]
  · rw [List.getElem?_eq_none (by rw [List.length_range]; omega)]
    rfl

@[simp] theorem layout_length (len : Nat) (parts : List (Nat × List Word)) :
    (layout len parts).length = len := by simp [layout]

/-- The field that covers a place is the one found for it. -/
theorem InOrder.find {len n o i : Nat} {ws : List Word} {parts : List (Nat × List Word)}
    (h : InOrder len n parts) (hm : (o, ws) ∈ parts) (h1 : o ≤ i) (h2 : i < o + ws.length) :
    parts.find? (fun p => p.1 ≤ i && i < p.1 + p.2.length) = some (o, ws) := by
  induction parts generalizing n with
  | nil => cases hm
  | cons p rest ih =>
    obtain ⟨hn, hlen, hrest⟩ := h
    obtain rfl | hm := List.mem_cons.mp hm
    · rw [List.find?_cons_of_pos (by simp [h1, h2])]
    · have hp := (hrest.bounds _ hm).1
      rw [List.find?_cons_of_neg (by simp only [Bool.and_eq_true, decide_eq_true_eq]; omega)]
      exact ih hrest hm

theorem layout_standsAt {len o : Nat} {ws : List Word} {parts : List (Nat × List Word)}
    (h : InOrder len 0 parts) (hm : (o, ws) ∈ parts) : StandsAt (layout len parts) o ws := by
  intro j hj
  have hlen := (h.bounds _ hm).2
  have hi : o + j < len := lt_of_lt_of_le (Nat.add_lt_add_left hj o) hlen
  rw [layout_getD_of_find hi (h.find hm (Nat.le_add_right o j) (Nat.add_lt_add_left hj o)),
    Nat.add_sub_cancel_left]

theorem laidOut_of_mem {l : List Word} {parts : List (Nat × List Word)}
    (h : ∀ p ∈ parts, StandsAt l p.1 p.2) : LaidOut l parts := by
  induction parts with
  | nil => trivial
  | cons p rest ih =>
    exact ⟨h p (List.mem_cons_self ..), ih fun q hq => h q (List.mem_cons_of_mem p hq)⟩

theorem layout_laidOut {len : Nat} {parts : List (Nat × List Word)} (h : InOrder len 0 parts) :
    LaidOut (layout len parts) parts := laidOut_of_mem fun _ hp => layout_standsAt h hp

theorem LaidOut.split {l : List Word} {a b : List (Nat × List Word)} (h : LaidOut l (a ++ b)) :
    LaidOut l a ∧ LaidOut l b := by
  induction a with
  | nil => exact ⟨trivial, h⟩
  | cons p rest ih =>
    obtain ⟨hp, hrest⟩ := h
    obtain ⟨ha, hb⟩ := ih hrest
    exact ⟨⟨hp, ha⟩, hb⟩

theorem Uncovered.find {i : Nat} {parts : List (Nat × List Word)} (h : Uncovered i parts) :
    parts.find? (fun p => p.1 ≤ i && i < p.1 + p.2.length) = none := by
  induction parts with
  | nil => rfl
  | cons p rest ih =>
    obtain ⟨hp, hrest⟩ := h
    rw [List.find?_cons_of_neg (by simp only [Bool.and_eq_true, decide_eq_true_eq]; omega)]
    exact ih hrest

/-- Words that no field covers read 0 (R181). -/
theorem layout_uncovered {i len : Nat} {parts : List (Nat × List Word)} (h : Uncovered i parts) :
    (layout len parts).getD i 0 = 0 := layout_getD_of_none h.find

theorem layout_readsZero {o n len : Nat} {parts : List (Nat × List Word)}
    (h : ∀ j, j < n → Uncovered (o + j) parts) : ReadsZero (layout len parts) o n :=
  fun j hj => congrArg BitVec.toNat (layout_uncovered (h j hj))

/-! ### Encodings (R181) -/

@[simp] theorem encNat1_length (v : Nat) : (encNat1 v).length = 1 := rfl
@[simp] theorem encNat2_length (v : Nat) : (encNat2 v).length = 2 := rfl
@[simp] theorem encNat3_length (v : Nat) : (encNat3 v).length = 3 := rfl
@[simp] theorem encPs2_length (x : Int) : (encPs2 x).length = 2 := rfl
@[simp] theorem encPs3_length (x : Int) : (encPs3 x).length = 3 := rfl
@[simp] theorem encPpt_length (x : Int) : (encPpt x).length = 2 := rfl
@[simp] theorem labelWords_length (m : Label) : (labelWords m).length = 3 := rfl
@[simp] theorem encInstant_length (i : Instant) : (encInstant i).length = 6 := rfl
@[simp] theorem settingsBlock_length (p : PortSettings) : (settingsBlock p).length = 10 := rfl
@[simp] theorem windowPosition_length (e : WindowEntry) : (windowPosition e).length = 16 := rfl
@[simp] theorem attentionWords_length (a : Attention) : (attentionWords a).length = 4 := rfl
@[simp] theorem reportWords_length (r : Report) : (reportWords r).length = 128 := layout_length ..

theorem present_length {α : Type} {n : Nat} {enc : α → List Word} (x : Option α)
    (h : ∀ v, (enc v).length = n) : (present n enc x).length = n := by
  cases x with
  | none => exact List.length_replicate
  | some v => exact h v

@[simp] theorem present_label_length (x : Option Label) : (present 3 labelWords x).length = 3 :=
  present_length x labelWords_length
@[simp] theorem present_ps3_length (x : Option Int) : (present 3 encPs3 x).length = 3 :=
  present_length x encPs3_length
@[simp] theorem present_ppt_length (x : Option Int) : (present 2 encPpt x).length = 2 :=
  present_length x encPpt_length
@[simp] theorem present_instant_length (x : Option Instant) : (present 6 encInstant x).length = 6 :=
  present_length x encInstant_length

theorem bitOf_eq_toNat (b : Bool) : bitOf b = b.toNat := by cases b <;> rfl

section
variable {l : List Word} {o : Nat}

theorem StandsAt.word {w : Word} (h : StandsAt l o [w]) : l.getD o 0 = w := h 0 Nat.one_pos

theorem StandsAt.nat1 {v : Nat} (h : StandsAt l o (encNat1 v)) : Shows16 l o v := by
  have hw := StandsAt.word h
  rw [Shows16, Safety.word, hw, BitVec.toNat_ofNat]

theorem StandsAt.fields {gs : List (Nat × Nat)} {v : Nat} (h : StandsAt l o [fields gs])
    (hv : (gs.map fun g => g.2 * 2 ^ g.1).sum = v) : Shows16 l o v := by
  subst hv
  exact StandsAt.nat1 h

theorem StandsAt.words2 {v : BitVec 32} (h : StandsAt l o (words2 v)) : dword l o = v.toNat := by
  have h0 : l.getD o 0 = v.extractLsb' 0 16 := h 0 (by exact Nat.lt_of_sub_eq_succ rfl)
  have h1 : l.getD (o + 1) 0 = v.extractLsb' 16 16 := h 1 (by exact Nat.lt_of_sub_eq_succ rfl)
  have hv := v.isLt
  rw [dword, Safety.word, Safety.word, h0, h1, BitVec.extractLsb'_toNat, BitVec.extractLsb'_toNat,
    Nat.shiftRight_eq_div_pow, Nat.shiftRight_eq_div_pow]
  omega

theorem StandsAt.words3 {v : BitVec 48} (h : StandsAt l o (words3 v)) : tword l o = v.toNat := by
  have h0 : l.getD o 0 = v.extractLsb' 0 16 := h 0 (by exact Nat.lt_of_sub_eq_succ rfl)
  have h1 : l.getD (o + 1) 0 = v.extractLsb' 16 16 := h 1 (by exact Nat.lt_of_sub_eq_succ rfl)
  have h2 : l.getD (o + 2) 0 = v.extractLsb' 32 16 := h 2 (by exact Nat.lt_of_sub_eq_succ rfl)
  have hv := v.isLt
  rw [tword, dword, Safety.word, Safety.word, Safety.word, h0, h1, h2, BitVec.extractLsb'_toNat,
    BitVec.extractLsb'_toNat, BitVec.extractLsb'_toNat, Nat.shiftRight_eq_div_pow,
    Nat.shiftRight_eq_div_pow, Nat.shiftRight_eq_div_pow]
  omega

theorem StandsAt.label {m : Label} (h : StandsAt l o (labelWords m)) : tword l o = m.toNat :=
  StandsAt.words3 h

theorem StandsAt.nat2 {v : Nat} (h : StandsAt l o (encNat2 v)) : Shows32 l o v :=
  (StandsAt.words2 h).trans (BitVec.toNat_ofNat ..)

theorem StandsAt.nat3 {v : Nat} (h : StandsAt l o (encNat3 v)) : Shows48 l o v :=
  (StandsAt.words3 h).trans (BitVec.toNat_ofNat ..)

theorem StandsAt.ppt {x : Int} (h : StandsAt l o (encPpt x)) : ShowsPpt l o x := by
  rw [ShowsPpt, StandsAt.words2 h, BitVec.toNat_ofInt, Int.toNat_of_nonneg (by omega)]
  rfl

theorem StandsAt.ps2 {x : Int} (h : StandsAt l o (encPs2 x)) : ShowsPs32 l o x := by
  intro h1 h2
  rw [StandsAt.words2 h, if_pos ⟨h1, h2⟩, BitVec.toNat_ofInt, Int.toNat_of_nonneg (by omega)]
  rfl

theorem StandsAt.ps3 {x : Int} (h : StandsAt l o (encPs3 x)) : ShowsPs48 l o x := by
  intro h1 h2
  rw [StandsAt.words3 h, if_pos ⟨h1, h2⟩, BitVec.toNat_ofInt, Int.toNat_of_nonneg (by omega)]
  rfl

theorem StandsAt.refIndex {r : Option Ref} (h : StandsAt l o [refWord r]) : ShowsRefIndex l o r := by
  have hw := StandsAt.word h
  refine ⟨?_, ?_⟩
  · rintro rfl
    rw [Safety.word, hw]; rfl
  · rintro x rfl
    have hx := x.isLt
    rw [Safety.word, hw, refWord, BitVec.toNat_ofNat, Nat.mod_eq_of_lt (by omega)]

theorem StandsAt.append {a b : List Word} (h : StandsAt l o (a ++ b)) :
    StandsAt l o a ∧ StandsAt l (o + a.length) b := by
  refine ⟨fun j hj => ?_, fun j hj => ?_⟩
  · rw [h j (by rw [List.length_append]; omega), List.getD_append _ _ _ _ hj]
  · rw [Nat.add_assoc, h _ (by rw [List.length_append]; omega),
      List.getD_append_right _ _ _ _ (Nat.le_add_right ..), Nat.add_sub_cancel_left]

/-- A run of blocks of one width. -/
theorem StandsAt.flatMap {α : Type} {w : Nat} {f : α → List Word} (hf : ∀ x, (f x).length = w)
    {xs : List α} (h : StandsAt l o (xs.flatMap f)) {i : Nat} {x : α} (hx : xs[i]? = some x) :
    StandsAt l (o + w * i) (f x) := by
  induction xs generalizing o i with
  | nil => cases hx
  | cons y ys ih =>
    rw [List.flatMap_cons] at h
    obtain ⟨hy, hys⟩ := h.append
    cases i with
    | zero => cases hx; exact hy
    | succ k =>
      have := ih hys (i := k) hx
      rwa [hf y, Nat.add_assoc, Nat.add_comm w, ← Nat.mul_succ] at this

/-- A run of words. -/
theorem StandsAt.map {α : Type} {f : α → Word} {xs : List α} (h : StandsAt l o (xs.map f)) {i : Nat}
    {x : α} (hx : xs[i]? = some x) : l.getD (o + i) 0 = f x := by
  obtain ⟨hi, -⟩ := List.getElem?_eq_some_iff.mp hx
  rw [h i (by rwa [List.length_map]), List.getD_eq_getElem?_getD, List.getElem?_map, hx]
  rfl

theorem standsAt_replicate {n : Nat} (h : StandsAt l o (List.replicate n 0)) : ReadsZero l o n := by
  intro j hj
  rw [Safety.word, h j (by rwa [List.length_replicate]), List.getD_eq_getElem?_getD,
    List.getElem?_replicate, if_pos hj]
  rfl

theorem StandsAt.option {α : Type} {n : Nat} {enc : α → List Word} {x : Option α} {P : α → Prop}
    (h : StandsAt l o (present n enc x)) (hP : ∀ v, StandsAt l o (enc v) → P v) :
    ShowsOption l o n x P := by
  refine ⟨?_, ?_⟩
  · rintro rfl; exact standsAt_replicate h
  · rintro v rfl; exact hP v h

theorem word_of_shows16 {v : Nat} (h : Shows16 l o v) (hv : v < 65536) : Safety.word l o = v :=
  h.trans (Nat.mod_eq_of_lt hv)

end

theorem vector_getElem?_toList {α : Type} {n : Nat} (v : Vector α n) (i : Fin n) :
    v.toList[i.val]? = some v[i] := by
  simp

/-! ### Alarm entries, pages and readouts (R188 to R190) -/

theorem showsAlarm (e : AlarmEntry) : ShowsAlarm e (alarmRecord e) := by
  obtain ⟨h0, h1, h2, h3, h4, h5, h8, -⟩ : LaidOut (alarmRecord e) _ :=
    layout_laidOut (by simp [InOrder])
  refine ⟨h0.fields (by simp [bitOf_eq_toNat]; omega), h1.fields (by simp; omega), h2.nat1, h3.nat1,
    h4.word, h5.option fun _ => StandsAt.label, h8.word, layout_readsZero fun j _ => ?_⟩
  simp [Uncovered]
  omega

theorem RefState.num_lt (x : RefState) : x.num < 4 := by cases x <;> decide
theorem PortState.num_lt (x : PortState) : x.num < 3 := by cases x <;> decide
theorem causeNum_lt (x : Option Cause) : causeNum x < 11 := by
  cases x with
  | none => decide
  | some c => cases c <;> decide

theorem showsReport (r : Report) : ShowsReport r (reportWords r) := by
  obtain ⟨h0, h1, h4, h5, h8, h9, h10, h12, h14, h17, h20, h21, h23, h31, h43, -⟩ :
      LaidOut (reportWords r) _ := layout_laidOut (by simp [InOrder])
  refine ⟨h0.word, h1.label, fun del loopStep hdel hloop => ?_, ?_, h8.fields (by simp; omega),
    h9.refIndex, h10.ppt, h12.ppt, h14.option fun _ => StandsAt.ps3, h17.nat3, h20.nat1, h21.ppt,
    fun x => ?_, fun p => ?_, ?_, layout_readsZero fun j _ => ?_⟩
  · have hd : (r.bnd.leap == some .delete) = del := by
      rw [Bool.eq_iff_iff, hdel, beq_iff_eq]
    have hl : (r.bnd.step.any fun p => p.2 == .loop) = loopStep := by
      rw [Bool.eq_iff_iff, hloop]
      cases r.bnd.step with
      | none => simp
      | some p => obtain ⟨v, k⟩ := p; simp
    have hb := Bool.toNat_le
    have b1 := hb r.bnd.repeated; have b2 := hb r.bnd.timeSet; have b3 := hb r.bnd.leap.isSome
    have b4 := hb del; have b5 := hb r.bnd.warmUp; have b6 := hb r.bnd.step.isSome
    have b7 := hb loopStep; have b8 := hb r.lastE.isSome
    refine word_of_shows16 (h4.fields ?_) (by omega)
    simp [bitOf_eq_toNat, hd, hl]
    omega
  · have hs : (r.bnd.step.map (·.1)).getD 0 = stepOf r.bnd := by
      unfold stepOf; cases r.bnd.step <;> rfl
    rw [hs]
    exact h5.ps3
  · have hw := h23.map (vector_getElem?_toList r.refs x)
    have h1 := RefState.num_lt r.refs[x].1
    have h2 := causeNum_lt r.refs[x].2
    rw [Safety.word, hw, Machine.fields, BitVec.toNat_ofNat]
    simp only [List.map_cons, List.map_nil, List.sum_cons, List.sum_nil]
    omega
  · have hw := h31.map (vector_getElem?_toList r.ports p)
    have h1 := PortState.num_lt r.ports[p]
    rw [Safety.word, hw, BitVec.toNat_ofNat, Nat.mod_eq_of_lt (by omega)]
  · have hb := Bool.toNat_le
    have h1 := hb r.critPin; have h2 := hb r.majPin; have h3 := hb r.minPin
    exact word_of_shows16 (h43.fields (by simp [bitOf_eq_toNat]; omega)) (by omega)
  · simp [Uncovered]
    omega

theorem readoutRecord_standsAt (w : List WindowEntry) (k : Fin 16) :
    StandsAt (readoutRecord w) (16 * k.val) (present 16 windowPosition w[k.val]?) := by
  have h : StandsAt (readoutRecord w) 0 (readoutRecord w) := fun j _ => by rw [Nat.zero_add]
  have hk := StandsAt.flatMap (w := 16) (f := fun i => present 16 windowPosition w[i]?)
    (fun i => present_length _ windowPosition_length) h (List.getElem?_range k.isLt)
  rwa [Nat.zero_add] at hk

theorem showsWindow (w : List WindowEntry) : ShowsWindow w (readoutRecord w) := by
  intro k
  refine (readoutRecord_standsAt w k).option fun e he => ?_
  rw [windowPosition] at he
  obtain ⟨he, h13⟩ := he.append
  obtain ⟨he, h10⟩ := he.append
  obtain ⟨he, ht⟩ := he.append
  obtain ⟨h0, h1⟩ := he.append
  obtain ⟨h4, h7⟩ := StandsAt.append ht
  have hb := Bool.toNat_le
  have b1 := hb e.inSpan; have b2 := hb e.chosen
  exact ⟨word_of_shows16 (h0.fields (by simp [bitOf_eq_toNat]; omega)) (by omega), h1.label, h4.label, h7.nat3,
    h10.ps3, h13.ps3⟩

/-! ### The loop status record (R187) -/

theorem stepPermitted_iff (l : Lpu) : stepPermitted l = true ↔
    l.cfg.policy = .always ∨ l.cfg.policy = .firstLock ∧ l.firstLockSpent = false := by
  unfold stepPermitted
  cases l.cfg.policy <;> simp

theorem loopRecord_inOrder (s : State) : InOrder 128 0 (loopPart s ++ holdPart s.hou) := by
  simp [InOrder, loopPart, holdPart, List.length_flatMap]

theorem showsLoop (s : State) : ShowsLoop s (loopRecord s) := by
  obtain ⟨hloop, hhold⟩ := (layout_laidOut (loopRecord_inOrder s)).split
  have hgap : ∀ o n, (∀ j, j < n → Uncovered (o + j) (loopPart s ++ holdPart s.hou)) →
      ReadsZero (loopRecord s) o n := fun _ _ => layout_readsZero
  change LaidOut (loopRecord s) _ at hloop hhold
  obtain ⟨h0, h1, h2, h3, h4, h6, h8, h11, h14, h16, h17, h18, h21, h22, h23, h24, h25, h28, h31, h34,
    h35, h36, h38, -⟩ := hloop
  obtain ⟨h40, h56, h57, h60, h61, h62, h64, h66, h68, h70, h72, h75, h80, h81, h82, h83, h85, h87,
    h89, h91, h93, h96, -⟩ := hhold
  refine ⟨fun permitted hp => h3.fields ?_, h0.fields (by simp [bitOf_eq_toNat]; omega),
    h1.refIndex, h2.refIndex, h4.ppt, h6.ppt, h8.option fun _ => StandsAt.ps3,
    h11.option fun _ => StandsAt.ps3, h14.option fun _ => StandsAt.ppt, h16.fields (by simp; omega),
    h17.nat1, h18.option fun _ => StandsAt.ps3, h21.nat1, h22.nat1, h23.nat1, h24.nat1, h25.nat3,
    h28.nat3, h31.nat3, h34.nat1, h35.nat1, h36.nat2, h38.nat1, ?_, fun i => ?_, h56.nat1, h57.ps3,
    h60.nat1, h61.nat1, h62.option fun _ => StandsAt.ppt, h64.ppt, h66.ppt, h68.ppt, h70.nat2, h72.nat3,
    h75.nat3, hgap 78 2 ?_, h80.nat1, h81.nat1, ?_, h83.ppt, h85.nat2, h87.nat2, h89.nat2, h91.nat2,
    h93.nat3, h96.nat1, hgap 97 31 ?_⟩
  · have hperm : stepPermitted s.lpu = permitted := by
      rw [Bool.eq_iff_iff, hp]; exact stepPermitted_iff s.lpu
    simp [bitOf_eq_toNat, hperm]
    omega
  · refine hgap 39 1 (fun j hj => ?_) 0 (by decide)
    simp [Uncovered, loopPart, holdPart, List.length_flatMap]
    omega
  · exact (h40.flatMap encPpt_length (vector_getElem?_toList s.hou.levels i)).ppt
  · intro j hj
    simp [Uncovered, loopPart, holdPart, List.length_flatMap]
    omega
  · have hb := Bool.toNat_le s.hou.cfg.fixedAging
    rw [bitOf_eq_toNat] at h82
    exact word_of_shows16 h82.nat1 (by omega)
  · intro j hj
    simp [Uncovered, loopPart, holdPart, List.length_flatMap]
    omega

/-! ### Port status records (R187) -/

theorem standsAt_settings {l : List Word} {o : Nat} {p : PortSettings}
    (h : StandsAt l o (settingsBlock p)) : ShowsSettings l o p := by
  rw [settingsBlock] at h
  obtain ⟨h, h7⟩ := h.append
  obtain ⟨h, h5⟩ := h.append
  obtain ⟨h, h3⟩ := h.append
  obtain ⟨h0, h1⟩ := h.append
  refine ⟨word_of_shows16 (h0.fields (by simp; omega)) ?_, h1.ps2, h3.nat2, h5.nat2, h7.nat3⟩
  have b1 : p.mode.num < 4 := by cases p.mode <;> decide
  have b2 : p.polarity.num < 2 := by cases p.polarity <;> decide
  have b3 : p.policy.num < 3 := by cases p.policy <;> decide
  have b4 : p.level.num < 3 := by cases p.level <;> decide
  have b5 : baudNum p.baud < 4 := by unfold baudNum; split_ifs <;> decide
  omega

theorem sampleMask_eq_ofBits (f : RoundTrip → Bool) (m : DelayMeas) :
    sampleMask f m = Nat.ofBits fun k : Fin 8 => f m.samples[k] := by
  have hb : ∀ (b : Bool) (k : Nat), (if b then 2 ^ k else 0) = 2 ^ k * b.toNat := fun b k => by
    cases b <;> simp
  simp only [sampleMask, hb, List.finRange, List.ofFn, Fin.foldr, Fin.foldr.loop, Nat.ofBits,
    List.map_cons, List.map_nil, List.sum_cons, List.sum_nil]
  omega

theorem showsMasks (m : DelayMeas) : ShowsMasks (BitVec.ofNat 16 (maskWord m)) m := by
  intro k
  have hk := k.isLt
  have hlo : sampleMask (· == .missing) m < 2 ^ 8 := by
    rw [sampleMask_eq_ofBits]; exact Nat.ofBits_lt_two_pow _
  have hbit : ∀ i, (maskWord m).testBit i = if i < 8 then (sampleMask (· == .missing) m).testBit i
      else (sampleMask (· != .notTaken) m).testBit (i - 8) := fun i => by
    rw [maskWord, Nat.add_comm]
    exact Nat.testBit_two_pow_mul_add _ hlo i
  refine ⟨?_, ?_⟩
  · rw [BitVec.getLsbD_ofNat, hbit, if_pos hk, sampleMask_eq_ofBits,
      Nat.testBit_ofBits_lt _ _ hk, decide_eq_true (by omega : k.val < 16), Bool.true_and]
    rfl
  · rw [BitVec.getLsbD_ofNat, hbit, if_neg (by omega), Nat.add_sub_cancel_left, sampleMask_eq_ofBits,
      Nat.testBit_ofBits_lt _ _ hk, decide_eq_true (by omega : 8 + k.val < 16), Bool.true_and]
    exact (decide_not ..).symm

theorem showsPort (p : Port) (s : State) : ShowsPort p s (portRecord p s) := by
  obtain ⟨h0, h1, h11, h21, h22, h28, -⟩ : LaidOut (portRecord p s) _ :=
    layout_laidOut (by simp [InOrder, present_length _ fun g : Staged => settingsBlock_length g.settings])
  refine ⟨fun origin hnone hreq hmeas => h0.fields ?_, standsAt_settings h1,
    h11.option fun _ => standsAt_settings, ?_, h22.option fun i hi => ?_,
    h28.option fun _ => StandsAt.label, ?_⟩
  · have ho : originNum s.ptu.ports[p].staged = origin := by
      unfold originNum
      rcases hg : s.ptu.ports[p].staged with _ | ⟨g, _ | _, c⟩
      · exact (hnone hg).symm
      · exact (hreq _ _ _ hg).symm
      · exact (hmeas _ _ hg).symm
    simp only [List.map_cons, List.map_nil, List.sum_cons, List.sum_nil, bitOf_eq_toNat, ho, auxNum,
      measOf]
    omega
  · have hw := StandsAt.word h21
    refine ⟨fun hm => ?_, fun m hm => ?_⟩
    · intro j hj
      obtain rfl : j = 0 := by omega
      have h0 : measOf s.ptu.ports[p] s = none := hm
      rw [h0] at hw
      exact congrArg BitVec.toNat hw
    · have h0 : measOf s.ptu.ports[p] s = some m := hm
      rw [h0] at hw
      rw [hw]
      exact showsMasks m
  · obtain ⟨hl, hp⟩ := StandsAt.append (a := labelWords i.label) hi
    exact ⟨hl.label, hp.nat3⟩
  · refine congrArg BitVec.toNat (layout_uncovered (i := 31) ?_)
    simp [Uncovered, present_length _ fun g : Staged => settingsBlock_length g.settings]

/-! ### Reference status records (R187) -/

theorem dividerOf_divRef (d : DividerId) (s : State) : dividerOf (divRef d) s = some s.cap.div[d] := by
  have hd := d.isLt
  rw [dividerOf, dif_pos (by change 2 ≤ d.val + 2 ∧ d.val + 2 < 6; omega)]
  rfl

theorem dividerOf_ppsRef (c : PpsChannelId) (s : State) : dividerOf (ppsRef c) s = none :=
  dif_neg (by have hc := c.isLt; change ¬(2 ≤ c.val ∧ c.val < 6); omega)

theorem dividerOf_pktRef (k : PacketId) (s : State) : dividerOf (pktRef k) s = none :=
  dif_neg (by change ¬(2 ≤ k.val + 6 ∧ k.val + 6 < 6); omega)

theorem ppsOf_ppsRef (c : PpsChannelId) (s : State) : ppsOf (ppsRef c) s = some s.cap.pps[c] := by
  have hc := c.isLt
  rw [ppsOf, dif_pos (by change c.val < 2; omega)]
  rfl

theorem ppsOf_divRef (d : DividerId) (s : State) : ppsOf (divRef d) s = none :=
  dif_neg (by change ¬d.val + 2 < 2; omega)

theorem ppsOf_pktRef (k : PacketId) (s : State) : ppsOf (pktRef k) s = none :=
  dif_neg (by change ¬k.val + 6 < 2; omega)

theorem packetRefOf_pktRef (k : PacketId) (s : State) : packetRefOf (pktRef k) s = some s.pku.refs[k] := by
  have hk := k.isLt
  rw [packetRefOf, dif_pos (by change 6 ≤ k.val + 6; omega)]
  rfl

theorem lineLevelOf_ppsRef (c : PpsChannelId) (s : State) : lineLevelOf (ppsRef c) s = false :=
  dif_neg (by have hc := c.isLt; change ¬(4 ≤ c.val ∧ c.val < 6); omega)

theorem lineLevelOf_pktRef (k : PacketId) (s : State) : lineLevelOf (pktRef k) s = false :=
  dif_neg (by change ¬(4 ≤ k.val + 6 ∧ k.val + 6 < 6); omega)

/-- The level shown beside a divider: that of its LINE input, where it has one. -/
theorem lineLevelOf_divRef {d : DividerId} {s : State} {line : Bool}
    (h1 : ∀ x : LineId, d = lineDiv x → line = s.cap.lineOk[x])
    (h2 : (∀ x : LineId, d ≠ lineDiv x) → line = false) : lineLevelOf (divRef d) s = line := by
  have hd := d.isLt
  by_cases hline : 2 ≤ d.val
  · obtain ⟨x, hx⟩ : ∃ x : LineId, d = lineDiv x :=
      ⟨⟨d.val - 2, by omega⟩, Fin.ext (by change d.val = d.val - 2 + 2; omega)⟩
    rw [h1 x hx, lineLevelOf, dif_pos (by change 4 ≤ d.val + 2 ∧ d.val + 2 < 6; omega)]
    subst hx
    rfl
  · rw [h2 fun x hx => hline (by rw [hx]; exact Nat.le_add_left 2 x.val)]
    exact dif_neg (by change ¬(4 ≤ d.val + 2 ∧ d.val + 2 < 6); omega)

theorem refKind_divider (d : DividerId) : refKind (divRef d) = .frq ∨ refKind (divRef d) = .line := by
  unfold refKind
  rw [if_neg (by change ¬d.val + 2 < 2; omega)]
  by_cases h : (divRef d).val < 4
  · exact .inl (if_pos h)
  · exact .inr ((if_neg h).trans (if_pos (by change d.val + 2 < 6; omega)))

/-- The fields that the records of every kind have. -/
def refCommonPart (r : Ref) (s : State) : List (Nat × List Word) :=
  let e := s.qsu.refs[r]
  let span := ((dividerOf r s).bind (·.detailSpan)).getD 0
  [(0, [refCodes e]), (1, [refFlags r s]),
    (2, [fields [(0, e.cfg.priority), (4, e.cfg.badLimit), (8, e.badCount), (13, span)]]),
    (3, encNat1 (stateCount e)), (4, encNat1 e.cfg.qualifyTime), (5, encNat1 e.cfg.dwell),
    (6, encNat2 e.cfg.freqTol), (8, present 3 labelWords (e.last.map (·.label))),
    (11, present 3 encPs3 (shownPhase r s)),
    (14, present 2 encPpt (e.last.bind (·.delta)))]

theorem refRecord_eq (r : Ref) (s : State) :
    refRecord r s = layout 32 (refCommonPart r s ++ refKindPart r s) := rfl

theorem refKindPart_divRef (d : DividerId) (s : State) : refKindPart (divRef d) s =
    [(16, encNat2 s.qsu.refs[divRef d].cfg.nominal), (18, encNat2 s.qsu.refs[divRef d].cfg.gross)] := by
  unfold refKindPart
  obtain h | h := refKind_divider d <;> rw [h]

/-- The fields of every kind; the flags, span and phase are those of the reference's kind. -/
theorem showsRefCommon {l : List Word} {r : Ref} {s : State} (h : LaidOut l (refCommonPart r s))
    {flags span : Nat} {phase : Option Int}
    (hflags : 4 * (lineLevelOf r s).toNat + 64 * ((dividerOf r s).any fun v => v.chain.isSome).toNat
      + 512 * (markOf r s).isSome.toNat + 1024 * ((dividerOf r s).map (·.state.num)).getD 0
      + 4096 * ((ppsOf r s).map (·.detailEdges)).getD 0 = flags)
    (hspan : ((dividerOf r s).bind (·.detailSpan)).getD 0 = span) (hphase : shownPhase r s = phase) :
    ShowsRefCommon s.qsu.refs[r] flags span phase l := by
  subst hspan hphase hflags
  obtain ⟨h0, h1, h2, h3, h4, h5, h6, h8, h11, h14, -⟩ := h
  have hdelta : (s.qsu.refs[r].last.bind (·.delta)).isSome = s.qsu.refs[r].last.any (·.delta.isSome) := by
    cases s.qsu.refs[r].last <;> rfl
  refine ⟨h0.fields ?_, h1.fields ?_, h2.fields ?_, fun hs => ?_, fun hs => ?_, fun hs => ?_, h4.nat1,
    h5.nat1, h6.nat2, ⟨fun hn => ?_, fun m hm => ?_⟩, h11.option fun _ => StandsAt.ps3,
    h14.option fun _ => StandsAt.ppt⟩
  · simp only [List.map_cons, List.map_nil, List.sum_cons, List.sum_nil]
    omega
  · simp only [List.map_cons, List.map_nil, List.sum_cons, List.sum_nil, bitOf_eq_toNat, hdelta]
    omega
  · simp only [List.map_cons, List.map_nil, List.sum_cons, List.sum_nil]
    omega
  · have hc : stateCount s.qsu.refs[r] = 0 := by simp only [stateCount, hs]
    rw [hc] at h3
    exact h3.nat1
  · have hc : stateCount s.qsu.refs[r] = s.qsu.refs[r].qualifyCount := by
      obtain hs | hs := hs <;> simp only [stateCount, hs]
    rw [hc] at h3
    exact h3.nat1
  · have hc : stateCount s.qsu.refs[r] = s.qsu.refs[r].dwellCount := by simp only [stateCount, hs]
    rw [hc] at h3
    exact h3.nat1
  · rw [hn] at h8
    exact standsAt_replicate h8
  · rw [hm] at h8
    exact h8.label

theorem shownPhase_of_none {r : Ref} {s : State} (h : dividerOf r s = none) :
    shownPhase r s = s.qsu.refs[r].last.bind (·.e) := by simp only [shownPhase, h]

theorem refRecord_laidOut (r : Ref) (s : State) :
    LaidOut (refRecord r s) (refCommonPart r s) ∧ LaidOut (refRecord r s) (refKindPart r s) := by
  rw [refRecord_eq]
  refine (layout_laidOut ?_).split
  have hk : ∀ k, refKind r = k → InOrder 32 0 (refCommonPart r s ++ refKindPart r s) := by
    intro k hk
    cases k <;> simp [InOrder, refCommonPart, refKindPart, hk]
  exact hk _ rfl

theorem showsRef (r : Ref) (s : State) : ShowsRef r s (refRecord r s) := by
  obtain ⟨hcommon, hkind⟩ := refRecord_laidOut r s
  refine ⟨?_, ?_, ?_⟩
  · rintro c rfl
    simp only [refKindPart, refKind_ppsRef, ppsOf_ppsRef] at hkind
    obtain ⟨h16, h18, h20, h23, h26, h29, -⟩ := hkind
    refine ⟨showsRefCommon hcommon ?_ ?_ (shownPhase_of_none (dividerOf_ppsRef c s)), h16.ps2, h18.nat2,
      h20.nat3, h23.nat3, h26.nat3, h29.option fun _ => StandsAt.ps3⟩
    · simp [lineLevelOf_ppsRef, dividerOf_ppsRef, markOf, refKind_ppsRef, ppsOf_ppsRef]
    · rw [dividerOf_ppsRef]; rfl
  · rintro d rfl
    have hgap : ∀ j, j < 12 → Uncovered (20 + j) (refCommonPart (divRef d) s
        ++ refKindPart (divRef d) s) := fun j _ => by
      simp [refCommonPart, refKindPart_divRef, Uncovered]
      omega
    rw [refKindPart_divRef] at hkind
    obtain ⟨h16, h18, -⟩ := hkind
    refine ⟨fun line h1 h2 => showsRefCommon hcommon ?_ ?_ ?_, h16.nat2, h18.nat2, layout_readsZero hgap⟩
    · have hmark : markOf (divRef d) s = none := by
        refine if_neg ?_
        obtain h | h := refKind_divider d <;> rw [h] <;> decide
      simp [lineLevelOf_divRef h1 h2, dividerOf_divRef, hmark, ppsOf_divRef]
    · rw [dividerOf_divRef]; rfl
    · simp only [shownPhase, dividerOf_divRef]
  · rintro k rfl
    have hmark : markOf (pktRef k) s = s.pku.stepMark := if_pos (refKind_pktRef k)
    simp only [refKindPart, refKind_pktRef, packetRefOf_pktRef, hmark] at hkind
    obtain ⟨h16, h18, h20, h23, h26, h27, h28, h29, -⟩ := hkind
    refine ⟨showsRefCommon hcommon ?_ ?_ (shownPhase_of_none (dividerOf_pktRef k s)), h16.ps2, h18.nat2,
      h20.nat3, h23.nat3, h26.fields ?_, h27.nat1, h28.nat1, h29.option fun _ => StandsAt.label⟩
    · simp [lineLevelOf_pktRef, dividerOf_pktRef, hmark, ppsOf_pktRef]
    · rw [dividerOf_pktRef]; rfl
    · simp
      omega

/-! ### The records together -/

theorem recordWords_length (k : RecordId) (s : State) : (recordWords k s).length = recordLength k := by
  cases k with
  | refStatus r => exact layout_length ..
  | loopStatus => exact layout_length ..
  | portStatus p => exact layout_length ..
  | alarm c => exact layout_length ..
  | page p => exact present_length _ reportWords_length
  | readout k =>
    change (readoutRecord _).length = 256
    simp [readoutRecord, List.length_flatMap, present_length _ windowPosition_length]

theorem showsRecord (s : State) (k : RecordId) : ShowsRecord s (recordWords k s) k := by
  cases k with
  | refStatus r => exact showsRef r s
  | loopStatus => exact showsLoop s
  | portStatus p => exact showsPort p s
  | alarm c => exact showsAlarm _
  | readout k => exact showsWindow _
  | page p =>
    have h : StandsAt (pageRecord s.xu.pages[p]) 0 (pageRecord s.xu.pages[p]) :=
      fun j _ => by rw [Nat.zero_add]
    refine ⟨fun hn => ?_, fun r hr => ?_⟩
    · change ReadsZero (pageRecord s.xu.pages[p]) 0 128
      rw [hn]
      rw [hn] at h
      exact standsAt_replicate h
    · change ShowsReport r (pageRecord s.xu.pages[p])
      rw [hr]
      exact showsReport r

theorem codesOfR182 : CodesOfR182 := by
  unfold CodesOfR182
  decide

/-- Settles O15: reads through the latch, and what each record holds. -/
theorem readsGoThroughTheLatch : Obligations.ReadsGoThroughTheLatch := by
  refine ⟨fun s addr k i hi ha => ⟨fun h0 => ?_, fun copy h0 hl => ?_, fun h0 hl => ?_,
    recordWords_length k s⟩, showsRecord, codesOfR182⟩
  · subst h0
    rw [exec_read s (.inr rfl), hostRead_first hi ha]
  · rw [exec_read s (.inl rfl), hostRead_latched hi h0 ha hl]
  · rw [exec_read s (.inl rfl), hostRead_live hi h0 ha hl]

end Sys2Proof.Machine
end

section
/-! PROOFS. Words outside the latchable records (R184 to R186, R163). -/

namespace Sys2Proof.Machine

open Sys2Proof.Safety Config

/-! ### Where the words lie (R162, R165) -/

/-- An address that no latchable record covers. -/
def OutsideRecords (a : Nat) : Prop := a < 0x680 ∨ 0xAB0 ≤ a ∧ a < 0xB00 ∨ 0xE00 ≤ a

theorem locate_eq_none {a : Nat} (h : OutsideRecords a) : locate a = none := by
  unfold OutsideRecords at h
  unfold locate
  rw [dif_neg (by omega), if_neg (by omega), dif_neg (by omega), dif_neg (by omega),
    dif_neg (by omega), dif_neg (by omega)]

theorem exec_readPlain {addr : WordAddr} {s : State} {v : Word} (h : OutsideRecords addr.toNat)
    (hv : readPlain addr.toNat s = v) :
    exec (.readLatchedWord addr) s = .next { s with readData := v } := by
  subst hv
  rw [exec_read s (.inl rfl), hostRead, locate_eq_none h]
  rfl

theorem readPlain_header {a : Nat} (s : State) (h : a < 0x080) :
    readPlain a s = (headerWords s).getD a 0 := if_pos h

theorem readPlain_slot {a w : Nat} {n : Slot} (s : State) (hw : w < 32)
    (ha : a = 0x080 + 32 * n.val + w) : readPlain a s = (slotWords s.xu.slots[n]).getD w 0 := by
  have hn := n.isLt
  have hdiv : (a - 0x080) / 32 = n.val := by omega
  have hmod : (a - 0x080) % 32 = w := by omega
  unfold readPlain
  rw [if_neg (by omega), dif_pos (by omega)]
  simp only [hdiv, hmod]
  rfl

theorem readPlain_sample {a w : Nat} {n : SampleSlot} (s : State) (hw : w < 32)
    (ha : a = 0x280 + 32 * n.val + w) : readPlain a s = (sampleWords s.pku.board[n]).getD w 0 := by
  have hn := n.isLt
  have hdiv : (a - 0x280) / 32 = n.val := by omega
  have hmod : (a - 0x280) % 32 = w := by omega
  unfold readPlain
  rw [if_neg (by omega), dif_neg (by omega), dif_pos (by omega)]
  simp only [hdiv, hmod]
  rfl

/-- Above the sample board only the two registers read a value (R162, R163). -/
theorem readPlain_high {a : Nat} (s : State) (h : 0x680 ≤ a) :
    readPlain a s = if a = 0xFFC then 0x4E01 else if a = 0xFFD then lineStatus s else 0 := by
  unfold readPlain
  rw [if_neg (by omega), dif_neg (by omega), dif_neg (by omega)]

/-! ### The layouts -/

theorem headerWords_inOrder (s : State) : InOrder 128 0
    [(0, [0x004E, 0x0001, 8, 12, 16, 32, 19]),
     (8, [fields [(0, s.tsu.warmStrap.toNat), (2, bitOf s.tsu.startStrap)]]),
     (9, encNat1 s.xu.queue.length), (16, s.xu.attn.toList.flatMap attentionWords)] := by
  simp [InOrder, List.length_flatMap]

theorem headerWords_attention (s : State) (c : AttnClass) :
    StandsAt (headerWords s) (16 + 4 * c.val) (attentionWords s.xu.attn[c]) := by
  obtain ⟨-, -, -, h16, -⟩ : LaidOut (headerWords s) _ := layout_laidOut (headerWords_inOrder s)
  exact h16.flatMap attentionWords_length (vector_getElem?_toList s.xu.attn c)

theorem headerWords_uncovered {a : Nat} (s : State)
    (h : a = 7 ∨ 10 ≤ a ∧ a < 16 ∨ 40 ≤ a) : (headerWords s).getD a 0 = 0 := by
  refine layout_uncovered ?_
  simp [Uncovered, List.length_flatMap]
  omega

theorem slotWords_laidOut (q : RequestSlot) : LaidOut (slotWords q)
    [(0, encNat1 q.state.num), (1, [q.kind]), (2, [q.tag]), (3, [q.code]),
     (4, labelWords q.label), (8, q.params.toList)] := layout_laidOut (by simp [InOrder])

theorem sampleWords_laidOut (q : Sample) : LaidOut (sampleWords q)
    [(0, encNat1 q.state.num), (1, [q.ref]), (2, encNat1 q.verdict.num),
     (3, labelWords q.takeLabel), (6, q.words.toList)] := layout_laidOut (by simp [InOrder])

theorem StandsAt.vector {l : List Word} {o n : Nat} {v : Vector Word n} (h : StandsAt l o v.toList)
    (j : Fin n) : l.getD (o + j.val) 0 = v[j] := by
  rw [h j.val (by rw [Vector.length_toList]; exact j.isLt), List.getD_eq_getElem?_getD,
    vector_getElem?_toList]
  rfl

/-- Settles O16: every word outside the latchable records. -/
theorem plainWordsRead : Obligations.PlainWordsRead := by
  intro s addr
  obtain ⟨h0, h8, h9, -⟩ : LaidOut (headerWords s) _ := layout_laidOut (headerWords_inOrder s)
  have header : ∀ {a : Nat} {v : Word}, (headerWords s).getD a 0 = v → a < 0x080 → addr.toNat = a →
      exec (.readLatchedWord addr) s = .next { s with readData := v } := fun {a v} hv ha haddr =>
    exec_readPlain (.inl (by omega)) (by rw [haddr, readPlain_header s ha, hv])
  have attention : ∀ (c : AttnClass) {j : Nat} {v : Word}, (attentionWords s.xu.attn[c]).getD j 0 = v →
      j < 4 → addr.toNat = 16 + j + 4 * c.val →
      exec (.readLatchedWord addr) s = .next { s with readData := v } := fun c {j v} hv hj haddr => by
    have hc := c.isLt
    refine header (a := 16 + 4 * c.val + j) ?_ (by omega) (by omega)
    rw [headerWords_attention s c j hj, hv]
  refine ⟨header (h0 0 (by decide)) (by decide), header (h0 1 (by decide)) (by decide),
    header (h0 2 (by decide)) (by decide), header (h0 3 (by decide)) (by decide),
    header (h0 4 (by decide)) (by decide), header (h0 5 (by decide)) (by decide),
    header (h0 6 (by decide)) (by decide), header (h8.word.trans ?_) (by decide),
    header h9.word (by decide), fun c => attention c (j := 0) ?_ (by decide),
    fun c => attention c (j := 1) rfl (by decide), fun c => attention c (j := 2) rfl (by decide),
    fun c => attention c (j := 3) ?_ (by decide), ?_, ?_, fun h => ?_, fun h => ?_, fun h => ?_⟩
  · simp [Machine.fields, bitOf_eq_toNat, Nat.mul_comm]
  · change BitVec.ofNat 16 (bitOf s.xu.attn[c].pending) = _
    cases s.xu.attn[c].pending <;> rfl
  · change BitVec.ofNat 16 s.xu.attn[c].route.num = _
    cases s.xu.attn[c].route <;> rfl
  · rintro n w q rfl hw ha
    have hn := n.isLt
    obtain ⟨h0, h1, h2, h3, h4, h8, -⟩ := slotWords_laidOut s.xu.slots[n]
    refine ⟨_, exec_readPlain (.inl (by omega)) (readPlain_slot s hw ha), ?_⟩
    refine ⟨?_, ?_, ?_, ?_, ?_, ?_, ?_⟩
    · rintro rfl
      rw [h0.word]
      cases s.xu.slots[n].state <;> rfl
    · rintro rfl; exact h1.word
    · rintro rfl; exact h2.word
    · rintro rfl; exact h3.word
    · rintro j rfl; exact h4 j.val j.isLt
    · rintro rfl
      exact layout_uncovered (by simp [Uncovered])
    · rintro j rfl; exact h8.vector j
  · rintro n w q rfl hw ha
    have hn := n.isLt
    obtain ⟨h0, h1, h2, h3, h6, -⟩ := sampleWords_laidOut s.pku.board[n]
    refine ⟨_, exec_readPlain (.inl (by omega)) (readPlain_sample s hw ha), ?_⟩
    refine ⟨?_, ?_, ?_, ?_, ?_, ?_⟩
    · rintro rfl
      rw [h0.word]
      cases s.pku.board[n].state <;> rfl
    · rintro rfl; exact h1.word
    · rintro rfl
      rw [h2.word]
      cases s.pku.board[n].verdict <;> rfl
    · rintro j rfl; exact h3 j.val j.isLt
    · rintro j rfl; exact h6.vector j
    · intro hw
      exact layout_uncovered (by simp [Uncovered]; omega)
  · exact exec_readPlain (.inr (.inr (by omega))) (by rw [readPlain_high s (by omega), if_pos h])
  · refine ⟨lineStatus s, exec_readPlain (.inr (.inr (by omega)))
      (by rw [readPlain_high s (by omega), if_neg (by omega), if_pos h]), ?_⟩
    have hbits : ∀ i, (lineStatus s).getLsbD i = (decide (i < 16) &&
        (Nat.ofBits ![s.xu.inta, s.xu.intb, decide (0 < s.tsu.warmCount)]).testBit i) := fun i => by
      rw [lineStatus, Machine.fields, BitVec.getLsbD_ofNat]
      congr 2
      simp [Nat.ofBits, Fin.foldr, Fin.foldr.loop, bitOf_eq_toNat]
      omega
    refine ⟨?_, ?_, ?_, fun i hi => ?_⟩
    · rw [hbits, Nat.testBit_ofBits_lt _ _ (by decide)]; rfl
    · rw [hbits, Nat.testBit_ofBits_lt _ _ (by decide)]; rfl
    · rw [hbits, Nat.testBit_ofBits_lt _ _ (by decide)]; rfl
    · rw [hbits, Nat.testBit_ofBits_ge _ _ hi, Bool.and_false]
  · by_cases hlow : addr.toNat < 0x080
    · exact header (headerWords_uncovered s (by omega)) hlow rfl
    · exact exec_readPlain (by unfold OutsideRecords; omega)
        (by rw [readPlain_high s (by omega), if_neg (by omega), if_neg (by omega)])

end Sys2Proof.Machine
end

section
/-! PROOFS. The timescale: an OSC-IN cycle, and what a second boundary settles, starts and hands. -/

namespace Sys2Proof.Machine

open Sys2Proof.Safety Config

/-! ### OSC_IN_CYCLE (R3, R4) -/

theorem setFraction_of_lt {raw : Nat} {t : Tsu} (h : raw < 1000000000000) :
    setFraction raw t = { t with frac := raw } := if_pos h

theorem setFraction_of_ge {raw : Nat} {t : Tsu} (h : 1000000000000 ≤ raw) :
    setFraction raw t = { t with frac := 999999999999, due := some (raw - 1000000000000) } :=
  if_neg (Nat.not_lt.mpr h)

theorem takeOscCycle_eq {s : State} (hd : s.tsu.due = none)
    (hh : ∀ h, s.tsu.hold = some h → h.run < h.length) : takeOscCycle s = { s with
      tsu := advanceTsu s.tsu
      cap := { s.cap with div := s.cap.div.map (runDividerTimer (cycleAdvance s.tsu)) }
      ptu := { s.ptu with meas := s.ptu.meas.map (runWindowTimer (cycleAdvance s.tsu)) } } := by
  have hend : holdEndDue s.tsu = false := by
    unfold holdEndDue
    split
    · rename_i h heq; exact decide_eq_false (Nat.not_le.mpr (hh h heq))
    · rfl
  rw [takeOscCycle, hd, hend]
  rfl

/-- The cycle adds its units exactly: whole ps and the residue (R4). -/
theorem cycleAdvance_exact {t : Tsu} (hf : t.freq.natAbs ≤ 50000000) :
    (cycleAdvance t : Int) * 10000000 + (cycleTotal t % residueUnit : Nat)
      = 1000000000000 + t.freq + t.residue := by
  have hu : (cycleUnits : Int) = 1000000000000 := rfl
  have hr : residueUnit = 10000000 := rfl
  have htotal : (cycleTotal t : Int) = 1000000000000 + t.freq + t.residue := by
    rw [cycleTotal, hu]; omega
  rw [cycleAdvance, hr]
  omega

/-- Settles O17. -/
theorem oscillatorCycleAdvances : Obligations.OscillatorCycleAdvances := by
  intro s hd hh hf
  refine ⟨_, cycleAdvance s.tsu, congrArg Host.Outcome.next (takeOscCycle_eq hd hh), ?_, ?_,
    fun hn hlt => ?_, fun hn hge => ?_, fun h hs => ?_, fun d => Vector.getElem_map ..,
    fun a m w hm hw => ?_, fun a hm => ?_, rfl, rfl, rfl, rfl, rfl, by simp [KeepsAllBut]⟩
  · have hres : (advanceTsu s.tsu).residue = cycleTotal s.tsu % residueUnit := by
      unfold advanceTsu
      dsimp only
      split
      · rfl
      · rw [setFraction_rest]
    rw [hres]
    exact cycleAdvance_exact hf
  · have hres : (advanceTsu s.tsu).residue = cycleTotal s.tsu % residueUnit := by
      unfold advanceTsu
      dsimp only
      split
      · rfl
      · rw [setFraction_rest]
    rw [hres]
    exact Nat.mod_lt _ (by decide)
  · simp only [advanceTsu, hn, setFraction_of_lt hlt]
  · simp only [advanceTsu, hn, setFraction_of_ge hge]
  · simp only [advanceTsu, hs]
  · have hmap : (s.ptu.meas.map (runWindowTimer (cycleAdvance s.tsu)))[a]
        = runWindowTimer (cycleAdvance s.tsu) s.ptu.meas[a] := Vector.getElem_map ..
    rw [hmap, hm]
    simp only [runWindowTimer, Option.map_some, hw]
  · have hmap : (s.ptu.meas.map (runWindowTimer (cycleAdvance s.tsu)))[a]
        = runWindowTimer (cycleAdvance s.tsu) s.ptu.meas[a] := Vector.getElem_map ..
    rw [hmap]
    rcases hs : s.ptu.meas[a] with _ | m
    · rfl
    · have hw := hm m hs
      simp only [runWindowTimer, Option.map_some, hw, Option.map_none]
      rw [← hw]

/-! ### The steps of a second boundary (R5) -/

/-- The TSU with label, REPEAT, time-set flag and schedule of the new second (R6, R7, R17). -/
def labelSettled (t : Tsu) : Tsu :=
  { t with
    label := (decideLabel t).label
    prevLabel := t.label
    second := t.second + 1
    repeated := (decideLabel t).repeated
    timeSet := t.timeSet || t.setTime.isSome
    setTime := none
    leap := if (decideLabel t).fate = .kept then t.leap else none }

/-- The changes of presence that settling the label hands (R17). -/
def labelConds (t : Tsu) : List CondChange :=
  handed codeTimeNotSet (!t.timeSet) (!(labelSettled t).timeSet)
    ++ handed codeLeap t.leap.isSome (labelSettled t).leap.isSome

theorem settleLabel_eq (s : State) : settleLabel s = { s with
    tsu := labelSettled s.tsu
    wires := { s.wires with conds := s.wires.conds ++ labelConds s.tsu } } := by
  simp only [settleLabel, handIfChanged_eq, labelConds, List.append_assoc]
  rfl

theorem countWarmUp_eq (s : State) : countWarmUp s = { s with
    tsu := { s.tsu with warmCount := s.tsu.warmCount - 1 }
    wires := { s.wires with
      conds := s.wires.conds ++ (if s.tsu.warmCount = 1 then [⟨12, false⟩] else [])
      warmEnd := s.wires.warmEnd || decide (s.tsu.warmCount = 1) } } := by
  unfold countWarmUp
  by_cases h0 : s.tsu.warmCount = 0
  · have h1 : ¬s.tsu.warmCount = 1 := by omega
    have hsame : s.tsu.warmCount - 1 = s.tsu.warmCount := by omega
    rw [if_pos h0, if_neg h1, decide_eq_false h1, Bool.or_false, List.append_nil, hsame]
  · rw [if_neg h0]
    by_cases h1 : s.tsu.warmCount = 1
    · rw [if_pos h1, if_pos h1, decide_eq_true h1, Bool.or_true]
      rfl
    · rw [if_neg h1, if_neg h1, decide_eq_false h1, Bool.or_false, List.append_nil]
      rfl

theorem startSecond_rest (x : Nat) (t : Tsu) : startSecond x t = { t with
    frac := (startSecond x t).frac
    due := (startSecond x t).due
    hold := (startSecond x t).hold
    step := none
    secondStep := pendingValue t
    skipTo := if 0 < pendingValue t then (pendingValue t).toNat + x else 0 } := by
  rcases hs : t.step with _ | p
  · have hv : pendingValue t = 0 := by simp only [pendingValue, hs]
    rw [hv, if_neg (by decide)]
    simp only [startSecond, hs]
    rw [setFraction_rest]
  · have hv : pendingValue t = p.value := by simp only [pendingValue, hs]
    rw [hv]
    simp only [startSecond, hs]
    by_cases hpos : 0 < p.value
    · simp only [if_pos hpos]
      rw [setFraction_rest]
    · by_cases hneg : p.value < 0
      · simp only [if_neg hpos, if_pos hneg]
      · have h0 : p.value = 0 := by omega
        simp only [if_neg hpos, if_neg hneg]
        rw [setFraction_rest, h0]

/-- The state as the boundary's step is entered in the log. -/
def secondStarted (x : Nat) (s : State) : State :=
  { s with
    tsu := startSecond x (labelSettled s.tsu)
    wires := { s.wires with conds := s.wires.conds ++ labelConds s.tsu } }

theorem secondBegun_eq (x : Nat) (s : State) :
    secondBegun x s = countWarmUp (enterStep (pendingValue s.tsu) (secondStarted x s)) := by
  rw [secondBegun, settleLabel_eq]
  rfl

theorem enterStep_tsu (v : Int) (s : State) : (enterStep v s).tsu = { s.tsu with
    logged := if v = 0 then s.tsu.logged else s.tsu.logged + 1
    stepLog := (enterStep v s).tsu.stepLog } := by
  by_cases hv : v = 0
  · simp only [enterStep, if_pos hv]
  · simp only [enterStep, if_neg hv, State.setTsu_tsu]
    rw [dropOldest_tsu (pruneLog s)]
    rfl

/-- What the delivered boundary leaves to do: the step log pruned, the ports resumed (R13, R128). -/
theorem takeSecondBoundary_rest {x : Nat} {s : State} (h : s.tsu.due = some x) :
    KeepsAllBut [.tsu, .ptu] (boundaryDelivered x s) (takeSecondBoundary s) := by
  have hp : KeepsAllBut [.tsu, .ptu] (boundaryDelivered x s)
      (if pendingValue s.tsu = 0 then boundaryDelivered x s else pruneLog (boundaryDelivered x s)) :=
    .ite (fun _ => .refl _ _) fun _ => (pruneLog_frame _).mono (by decide)
  rw [takeSecondBoundary_eq h]
  exact .ite (fun _ => hp.trans ((resumePorts_frame _).mono (by decide))) fun _ => hp

section
variable {x : Nat} {s : State}

theorem secondBegun_wires : (secondBegun x s).wires = { s.wires with
    conds := s.wires.conds ++ labelConds s.tsu ++ (if s.tsu.warmCount = 1 then [⟨12, false⟩] else [])
    warmEnd := s.wires.warmEnd || decide (s.tsu.warmCount = 1) } := by
  have hw := (enterStep_frame (pendingValue s.tsu) (secondStarted x s)).wires_eq (by decide)
  have hc : (enterStep (pendingValue s.tsu) (secondStarted x s)).tsu.warmCount = s.tsu.warmCount := by
    rw [enterStep_tsu, secondStarted, startSecond_rest]
    rfl
  rw [secondBegun_eq, countWarmUp_eq]
  simp only [hw, hc]
  rfl

theorem secondBegun_tsu : (secondBegun x s).tsu = { startSecond x (labelSettled s.tsu) with
    logged := if pendingValue s.tsu = 0 then s.tsu.logged else s.tsu.logged + 1
    stepLog := (enterStep (pendingValue s.tsu) (secondStarted x s)).tsu.stepLog
    warmCount := s.tsu.warmCount - 1 } := by
  rw [secondBegun_eq, countWarmUp_eq]
  simp only
  rw [enterStep_tsu, secondStarted, startSecond_rest]
  rfl

theorem secondBegun_cap :
    (secondBegun x s).cap = (enterStep (pendingValue s.tsu) (secondStarted x s)).cap := by
  rw [secondBegun_eq, countWarmUp_eq]

theorem boundaryDelivered_wires : (boundaryDelivered x s).wires =
    deliver (boundaryOf s.tsu (secondBegun x s).tsu) (secondBegun x s).wires := by
  have hp := completeAtBoundary_frame s.tsu (secondBegun x s).tsu.label (secondBegun x s)
  change deliver (boundaryOf s.tsu (parkedCompleted x s).tsu) (parkedCompleted x s).wires = _
  rw [parkedCompleted, hp.tsu_eq (by decide), hp.wires_eq (by decide)]

variable (h : s.tsu.due = some x)
include h

theorem takeSecondBoundary_tsu : (takeSecondBoundary s).tsu = { (secondBegun x s).tsu with
    stepLog := if pendingValue s.tsu = 0 then (secondBegun x s).tsu.stepLog
      else (secondBegun x s).tsu.stepLog.filter (entryNeeded (boundaryDelivered x s)) } := by
  have hd := boundaryDelivered_tsu x s
  have hp : (if pendingValue s.tsu = 0 then boundaryDelivered x s
      else pruneLog (boundaryDelivered x s)).tsu = { (secondBegun x s).tsu with
    stepLog := if pendingValue s.tsu = 0 then (secondBegun x s).tsu.stepLog
      else (secondBegun x s).tsu.stepLog.filter (entryNeeded (boundaryDelivered x s)) } := by
    by_cases hv : pendingValue s.tsu = 0
    · rw [if_pos hv, if_pos hv, hd]
    · rw [if_neg hv, if_neg hv, ← hd]; rfl
  rw [takeSecondBoundary_eq h]
  refine ite_cases (P := fun t : State => t.tsu = _) ?_ hp
  rw [(resumePorts_frame _).tsu_eq (by decide), hp]

theorem takeSecondBoundary_cap : (takeSecondBoundary s).cap
    = (enterStep (pendingValue s.tsu) (secondStarted x s)).cap := by
  rw [(takeSecondBoundary_rest h).cap_eq (by decide), ← secondBegun_cap]
  exact (completeAtBoundary_frame s.tsu _ (secondBegun x s)).cap_eq (by decide)

theorem takeSecondBoundary_xu : (takeSecondBoundary s).xu = (parkedCompleted x s).xu :=
  (takeSecondBoundary_rest h).xu_eq (by decide)

theorem takeSecondBoundary_wires : (takeSecondBoundary s).wires =
    deliver (boundaryOf s.tsu (secondBegun x s).tsu) (secondBegun x s).wires := by
  rw [(takeSecondBoundary_rest h).wires_eq (by decide), boundaryDelivered_wires]

/-- The parts of the TSU that the label of the new second decides. -/
theorem takeSecondBoundary_label : (takeSecondBoundary s).tsu.label = (decideLabel s.tsu).label
    ∧ (takeSecondBoundary s).tsu.repeated = (decideLabel s.tsu).repeated
    ∧ (takeSecondBoundary s).tsu.leap
      = (if (decideLabel s.tsu).fate = .kept then s.tsu.leap else none) := by
  rw [takeSecondBoundary_tsu h, secondBegun_tsu, startSecond_rest]
  exact ⟨rfl, rfl, rfl⟩

end

/-- Settles O18. -/
theorem boundarySettlesTheLabel : Obligations.BoundarySettlesTheLabel := by
  intro s x h
  obtain ⟨hlabel, hrep, hleap⟩ := takeSecondBoundary_label h
  have hdecision : ∀ d, decideLabel s.tsu = d → (takeSecondBoundary s).tsu.label = d.label
      ∧ (takeSecondBoundary s).tsu.repeated = d.repeated
      ∧ (takeSecondBoundary s).tsu.leap = (if d.fate = .kept then s.tsu.leap else none) := by
    rintro d rfl
    exact ⟨hlabel, hrep, hleap⟩
  refine ⟨_, rfl, fun hs hl => ?_, fun l hs hl ht hk => ?_, fun l hs hl ht hk => ?_,
    fun l hs hl ht => ?_, fun l hs hl ht => ?_, fun p hs => ?_, ?_, ?_, ?_, takeSecondBoundary_frame s⟩
  · have hd := hdecision ⟨s.tsu.label + 1, false, .kept⟩ (by simp only [decideLabel, hs, labelByLeap, hl])
    exact ⟨hd.1, hd.2.1, hd.2.2.trans hl⟩
  · have hd := hdecision ⟨s.tsu.label, true, .executed⟩
      (by simp only [decideLabel, hs, labelByLeap, hl, ht, hk, if_pos])
    exact hd
  · have hd := hdecision ⟨s.tsu.label + 2, false, .executed⟩
      (by simp only [decideLabel, hs, labelByLeap, hl, ht, hk, if_pos])
    exact hd
  · have hne : ¬s.tsu.label = l.target := fun he => absurd ht (by rw [he]; exact lt_irrefl _)
    exact hdecision ⟨s.tsu.label + 1, false, .missed⟩
      (by simp only [decideLabel, hs, labelByLeap, hl, if_neg hne, if_pos ht])
  · have hne : ¬s.tsu.label = l.target := fun he => absurd ht (by rw [he]; exact lt_irrefl _)
    have hd := hdecision ⟨s.tsu.label + 1, false, .kept⟩
      (by simp only [decideLabel, hs, labelByLeap, hl, if_neg hne, if_neg (by omega :
        ¬l.target.toNat < s.tsu.label.toNat)])
    exact ⟨hd.1, hd.2.1, hd.2.2.trans hl⟩
  · have hd := hdecision ⟨p.label, false, fateBySetTime s.tsu.label p.label s.tsu.leap⟩
      (by simp only [decideLabel, hs])
    refine ⟨hd.1, hd.2.1, fun hl => ?_, fun l hl => ⟨fun hm => ?_, fun h1 h2 => ?_⟩⟩
    · rw [hd.2.2, hl]; exact ite_self _
    · have hf : fateBySetTime s.tsu.label p.label s.tsu.leap = .missed := by
        rw [hl]
        by_cases h1 : s.tsu.label.toNat + 1 < l.target.toNat ∧ l.target.toNat < p.label.toNat
        · exact if_pos h1
        · exact (if_neg h1).trans (if_pos (hm.resolve_left h1))
      rw [hd.2.2, hf]; rfl
    · have hf : fateBySetTime s.tsu.label p.label s.tsu.leap = .kept := by
        rw [hl]
        exact (if_neg h1).trans (if_neg (by omega))
      rw [hd.2.2, hf]; exact hl
  · rw [takeSecondBoundary_tsu h, secondBegun_tsu, startSecond_rest]; rfl
  · rw [takeSecondBoundary_tsu h, secondBegun_tsu, startSecond_rest]; rfl
  · rw [takeSecondBoundary_wires h, secondBegun_wires, hleap]
    change s.wires.conds ++ labelConds s.tsu ++ _ = _
    rw [labelConds]
    have htime : handed codeTimeNotSet (!s.tsu.timeSet) (!(labelSettled s.tsu).timeSet)
        = if s.tsu.timeSet = false ∧ s.tsu.setTime ≠ none then [⟨13, false⟩] else [] := by
      change handed codeTimeNotSet (!s.tsu.timeSet) (!(s.tsu.timeSet || s.tsu.setTime.isSome)) = _
      unfold handed
      rcases s.tsu.timeSet <;> rcases s.tsu.setTime <;> simp
    have hpend : handed codeLeap s.tsu.leap.isSome (labelSettled s.tsu).leap.isSome
        = if s.tsu.leap ≠ none ∧ (if (decideLabel s.tsu).fate = .kept then s.tsu.leap else none) = none
          then [⟨16, false⟩] else [] := by
      change handed codeLeap s.tsu.leap.isSome
        (if (decideLabel s.tsu).fate = .kept then s.tsu.leap else none).isSome = _
      unfold handed
      by_cases hf : (decideLabel s.tsu).fate = .kept
      · rw [if_pos hf, if_pos rfl, if_neg (fun hn => hn.1 hn.2)]
      · rw [if_neg hf]
        rcases s.tsu.leap <;> simp
    rw [htime, hpend]
    simp only [List.append_assoc]

/-- Settles O20. -/
theorem boundaryReachesEveryBlock : Obligations.BoundaryReachesEveryBlock := by
  intro s x h
  have htsu := takeSecondBoundary_tsu h
  have hb : boundaryOf s.tsu (secondBegun x s).tsu = boundaryOf s.tsu (takeSecondBoundary s).tsu := by
    rw [htsu]; rfl
  have hw := takeSecondBoundary_wires h
  rw [hb, secondBegun_wires] at hw
  refine ⟨_, boundaryOf s.tsu (takeSecondBoundary s).tsu, rfl, rfl, rfl, rfl, rfl, rfl, rfl, rfl, rfl,
    fun hs => ?_, fun v n hs => ?_, fun v hs => ?_, fun c => ?_, fun d => ?_, ?_⟩
  · exact congrArg (Option.map _) hs
  · exact congrArg (Option.map _) hs
  · exact congrArg (Option.map _) hs
  · rw [hw]; exact Vector.getElem_map ..
  · rw [hw]; exact Vector.getElem_map ..
  · exact hw.trans (by rw [hw]; rfl)

/-! ### The step log at a boundary (R13, R14) -/

theorem entryNeeded_of_chain {s : State} {l : LoggedStep} {d : DividerId} {ch : Chain}
    (hc : s.cap.div[d].chain = some ch) (h : ch.note < l.entry) : entryNeeded s l = true :=
  (entryNeeded_iff s l).mpr ⟨d, .inl ⟨ch, hc, h⟩⟩

theorem entryNeeded_of_unseen {s : State} {l : LoggedStep} {d : DividerId}
    (hd : s.cap.div[d].state ≠ .idle) (h : stepsSeen s d < l.entry) : entryNeeded s l = true :=
  (entryNeeded_iff s l).mpr ⟨d, .inr ⟨hd, h⟩⟩

theorem dropOldest_of_short {s : State} (h : s.tsu.stepLog.length < 4) : dropOldest s = s := if_pos h

theorem dropOldest_of_full {s : State} {e : LoggedStep} {rest : List LoggedStep}
    (h : s.tsu.stepLog = e :: rest) (hlen : rest.length = 3) : dropOldest s = { s with
      tsu := { s.tsu with stepLog := rest }
      cap := { s.cap with div := s.cap.div.map (endChainBefore e.entry) } } := by
  have hfull : (e :: rest).length = 4 := congrArg (· + 1) hlen
  have hn : ¬(e :: rest).length < stepLogSize := by rw [hfull]; decide
  have h0 : (e :: rest).length - stepLogSize = 0 := by rw [hfull]; rfl
  simp only [dropOldest, h, if_neg hn, h0, List.drop_zero]
  rfl

theorem endChainBefore_state (entry : Nat) (d : Divider) : (endChainBefore entry d).state = d.state := by
  unfold endChainBefore
  split
  · split <;> rfl
  · rfl

theorem endChainBefore_of_older {entry : Nat} {d : Divider} {ch : Chain} (hc : d.chain = some ch)
    (h : ch.note < entry) : endChainBefore entry d = { d with chain := none } := by
  simp only [endChainBefore, hc, if_pos h, endChain]

theorem endChainBefore_of_newer {entry : Nat} {d : Divider}
    (h : ∀ ch, d.chain = some ch → entry ≤ ch.note) : endChainBefore entry d = d := by
  unfold endChainBefore
  split
  · rename_i ch hc; exact if_neg (Nat.not_lt.mpr (h ch hc))
  · rfl

theorem dropOldest_state (s : State) (d : DividerId) :
    (dropOldest s).cap.div[d].state = s.cap.div[d].state := by
  unfold dropOldest
  split
  · rfl
  · split
    · rfl
    · rename_i l rest _
      have hm : (s.cap.div.map (endChainBefore l.entry))[d] = endChainBefore l.entry s.cap.div[d] :=
        Vector.getElem_map ..
      exact (congrArg Divider.state hm).trans (endChainBefore_state ..)

theorem pendingValue_of_some {t : Tsu} {p : PendingStep} (h : t.step = some p) :
    pendingValue t = p.value := by simp only [pendingValue, h]

theorem pendingValue_of_none {t : Tsu} (h : t.step = none) : pendingValue t = 0 := by
  simp only [pendingValue, h]

section
variable {x : Nat} {s : State}

theorem secondStarted_tsu_log : (secondStarted x s).tsu.stepLog = s.tsu.stepLog
    ∧ (secondStarted x s).tsu.logged = s.tsu.logged
    ∧ (secondStarted x s).tsu.label = (decideLabel s.tsu).label := by
  rw [secondStarted, startSecond_rest]
  exact ⟨rfl, rfl, rfl⟩

/-- The started second needs the entries that were needed before it. -/
theorem entryNeeded_secondStarted : entryNeeded (secondStarted x s) = entryNeeded s := by
  funext l
  have hlog := (secondStarted_tsu_log (x := x) (s := s)).2.1
  unfold entryNeeded stepsSeen
  rw [hlog]
  rfl

theorem pruneLog_secondStarted : (pruneLog (secondStarted x s)).tsu.stepLog
    = s.tsu.stepLog.filter (entryNeeded s) := by
  rw [← entryNeeded_secondStarted (x := x), ← (secondStarted_tsu_log (x := x) (s := s)).1]
  rfl

/-- The log as the new step is entered: pruned, and the oldest dropped where it is full. -/
def logBefore (x : Nat) (s : State) : State := dropOldest (pruneLog (secondStarted x s))

/-- The entry of the boundary's step (R13). -/
def newEntry (s : State) : LoggedStep :=
  ⟨(decideLabel s.tsu).label, pendingValue s.tsu, s.tsu.logged + 1⟩

theorem enterStep_eq (hv : pendingValue s.tsu ≠ 0) :
    (enterStep (pendingValue s.tsu) (secondStarted x s)).tsu.stepLog = (logBefore x s).tsu.stepLog
      ++ [newEntry s]
    ∧ (enterStep (pendingValue s.tsu) (secondStarted x s)).cap = (logBefore x s).cap := by
  obtain ⟨-, hlogged, hlabel⟩ := secondStarted_tsu_log (x := x) (s := s)
  have hd := dropOldest_tsu (pruneLog (secondStarted x s))
  have h1 : (dropOldest (pruneLog (secondStarted x s))).tsu.label = (decideLabel s.tsu).label := by
    rw [hd, ← hlabel]; rfl
  have h2 : (dropOldest (pruneLog (secondStarted x s))).tsu.logged = s.tsu.logged := by
    rw [hd, ← hlogged]; rfl
  rw [enterStep, if_neg hv, newEntry, ← h1, ← h2]
  exact ⟨rfl, rfl⟩

/-- A boundary with a step shows it to every divider: what they have seen is what they had. -/
theorem stepsSeen_boundaryDelivered (hv : pendingValue s.tsu ≠ 0) (d : DividerId) :
    stepsSeen (boundaryDelivered x s) d = stepsSeen s d := by
  obtain ⟨p, hp⟩ : ∃ p, s.tsu.step = some p :=
    Option.ne_none_iff_exists'.mp fun hn => hv (pendingValue_of_none hn)
  have hlogged : (boundaryDelivered x s).tsu.logged = s.tsu.logged + 1 := by
    rw [boundaryDelivered_tsu, secondBegun_tsu]
    exact if_neg hv
  have hstep : (boundaryOf s.tsu (secondBegun x s).tsu).step.any (fun p => p.1 != 0) = true := by
    change (s.tsu.step.map fun p => (p.value, p.origin)).any (fun p => p.1 != 0) = true
    have hne : p.value ≠ 0 := pendingValue_of_some hp ▸ hv
    rw [hp]
    exact bne_iff_ne.mpr hne
  have hdiv : (boundaryDelivered x s).wires.divBnd[d]
      = s.wires.divBnd[d] ++ [boundaryOf s.tsu (secondBegun x s).tsu] := by
    rw [boundaryDelivered_wires, secondBegun_wires]
    exact Vector.getElem_map ..
  rw [stepsSeen, stepsSeen, hlogged, hdiv, List.filter_append, List.length_append]
  simp only [List.filter_cons, hstep, if_true]
  exact Nat.add_sub_add_right ..

variable (h : s.tsu.due = some x)
include h

theorem takeSecondBoundary_log_of_zero (hv : pendingValue s.tsu = 0) :
    (takeSecondBoundary s).tsu.stepLog = s.tsu.stepLog
      ∧ (takeSecondBoundary s).tsu.logged = s.tsu.logged ∧ (takeSecondBoundary s).cap = s.cap := by
  refine ⟨?_, ?_, ?_⟩
  · rw [takeSecondBoundary_tsu h, secondBegun_tsu]
    simp only [if_pos hv]
    rw [enterStep, if_pos hv, secondStarted_tsu_log.1]
  · rw [takeSecondBoundary_tsu h, secondBegun_tsu]
    exact if_pos hv
  · rw [takeSecondBoundary_cap h, enterStep, if_pos hv]
    rfl

theorem takeSecondBoundary_log (hv : pendingValue s.tsu ≠ 0) :
    (takeSecondBoundary s).tsu.stepLog = ((logBefore x s).tsu.stepLog
        ++ [newEntry s]).filter
          (entryNeeded (boundaryDelivered x s))
      ∧ (takeSecondBoundary s).tsu.logged = s.tsu.logged + 1
      ∧ (takeSecondBoundary s).cap = (logBefore x s).cap := by
  refine ⟨?_, ?_, ?_⟩
  · rw [takeSecondBoundary_tsu h, secondBegun_tsu, ← (enterStep_eq hv).1]
    exact if_neg hv
  · rw [takeSecondBoundary_tsu h, secondBegun_tsu]
    exact if_neg hv
  · rw [takeSecondBoundary_cap h, (enterStep_eq hv).2]

theorem boundaryDelivered_cap : (boundaryDelivered x s).cap = (takeSecondBoundary s).cap :=
  ((takeSecondBoundary_rest h).cap_eq (by decide)).symm

/-- The new entry stays where a divider is not IDLE: it has the boundary still to take. -/
theorem entryNeeded_newer {d : DividerId} (hv : pendingValue s.tsu ≠ 0) (hd : s.cap.div[d].state ≠ .idle)
    {l : LoggedStep} (hl : s.tsu.logged < l.entry) : entryNeeded (boundaryDelivered x s) l = true := by
  have hstate : (boundaryDelivered x s).cap.div[d].state = s.cap.div[d].state := by
    rw [boundaryDelivered_cap h, (takeSecondBoundary_log h hv).2.2]
    exact dropOldest_state (pruneLog (secondStarted x s)) d
  refine entryNeeded_of_unseen (d := d) (by rw [hstate]; exact hd) ?_
  rw [stepsSeen_boundaryDelivered hv, stepsSeen]
  omega

/-- Where nothing is dropped no chain ends, and the entries an open chain needs stay (R13). -/
theorem takeSecondBoundary_no_drop (hshort : s.tsu.stepLog.length < 4
      ∨ pendingValue s.tsu = 0 ∨ s.tsu.stepLog.length = 4 ∧ ∃ l ∈ s.tsu.stepLog, ¬Needed s l) :
    (takeSecondBoundary s).cap = s.cap ∧ ∀ l ∈ s.tsu.stepLog, ∀ (d : DividerId) (ch : Chain),
      s.cap.div[d].chain = some ch → ch.note < l.entry → l ∈ (takeSecondBoundary s).tsu.stepLog := by
  by_cases hv : pendingValue s.tsu = 0
  · obtain ⟨hlog, -, hcap⟩ := takeSecondBoundary_log_of_zero h hv
    exact ⟨hcap, fun l hl _ _ _ _ => by rw [hlog]; exact hl⟩
  · obtain ⟨hlog, -, hcap⟩ := takeSecondBoundary_log h hv
    have hroom : (s.tsu.stepLog.filter (entryNeeded s)).length < 4 := by
      obtain hlt | hz | ⟨hfull, l, hl, hn⟩ := hshort
      · exact lt_of_le_of_lt (List.length_filter_le ..) hlt
      · exact absurd hz hv
      · rw [← hfull]
        exact List.length_filter_lt_length_iff_exists.mpr
          ⟨l, hl, fun hne => hn ((entryNeeded_iff s l).mp hne)⟩
    have hbefore : logBefore x s = pruneLog (secondStarted x s) :=
      dropOldest_of_short (by rw [pruneLog_secondStarted]; exact hroom)
    have hsame : (takeSecondBoundary s).cap = s.cap := by rw [hcap, hbefore]; rfl
    refine ⟨hsame, fun l hl d ch hc hlt => ?_⟩
    rw [hlog, hbefore, pruneLog_secondStarted]
    refine List.mem_filter.mpr ⟨List.mem_append_left _ (List.mem_filter.mpr
      ⟨hl, entryNeeded_of_chain hc hlt⟩), entryNeeded_of_chain (d := d) (ch := ch) ?_ hlt⟩
    rw [boundaryDelivered_cap h, hsame]
    exact hc

/-- STEP_LOG_DROP (R14): the oldest of four needed entries goes, with the chains that need it. -/
theorem takeSecondBoundary_drop {e : LoggedStep} {rest : List LoggedStep} (hv : pendingValue s.tsu ≠ 0)
    (hlog : s.tsu.stepLog = e :: rest) (hlen : rest.length = 3)
    (hneeded : ∀ l ∈ s.tsu.stepLog, Needed s l) :
    (takeSecondBoundary s).cap = { s.cap with div := s.cap.div.map (endChainBefore e.entry) }
      ∧ (takeSecondBoundary s).tsu.stepLog = (rest
          ++ [newEntry s]).filter
            (entryNeeded (boundaryDelivered x s)) := by
  have hp : (pruneLog (secondStarted x s)).tsu.stepLog = e :: rest := by
    rw [pruneLog_secondStarted, ← hlog]
    exact List.filter_eq_self.mpr fun l hl => (entryNeeded_iff s l).mpr (hneeded l hl)
  have hbefore := dropOldest_of_full hp hlen
  obtain ⟨h1, -, h2⟩ := takeSecondBoundary_log h hv
  rw [h1, h2, logBefore, hbefore]
  exact ⟨rfl, rfl⟩

end

/-- Settles O19. -/
theorem boundaryStartsTheSecond : Obligations.BoundaryStartsTheSecond := by
  intro s x h
  have htsu := takeSecondBoundary_tsu h
  have hfrac : (takeSecondBoundary s).tsu.frac = (startSecond x (labelSettled s.tsu)).frac
      ∧ (takeSecondBoundary s).tsu.due = (startSecond x (labelSettled s.tsu)).due
      ∧ (takeSecondBoundary s).tsu.hold = (startSecond x (labelSettled s.tsu)).hold := by
    rw [htsu, secondBegun_tsu]; exact ⟨rfl, rfl, rfl⟩
  have hrest : (takeSecondBoundary s).tsu.step = none
      ∧ (takeSecondBoundary s).tsu.second = s.tsu.second + 1
      ∧ (takeSecondBoundary s).tsu.prevLabel = s.tsu.label
      ∧ (takeSecondBoundary s).tsu.secondStep = pendingValue s.tsu
      ∧ (takeSecondBoundary s).tsu.skipTo
        = (if 0 < pendingValue s.tsu then (pendingValue s.tsu).toNat + x else 0)
      ∧ (takeSecondBoundary s).tsu.warmCount = s.tsu.warmCount - 1
      ∧ (takeSecondBoundary s).tsu.freq = s.tsu.freq ∧ (takeSecondBoundary s).tsu.residue = s.tsu.residue
      ∧ (takeSecondBoundary s).tsu.warmStrap = s.tsu.warmStrap
      ∧ (takeSecondBoundary s).tsu.startStrap = s.tsu.startStrap := by
    rw [htsu, secondBegun_tsu, startSecond_rest]
    exact ⟨rfl, rfl, rfl, rfl, rfl, rfl, rfl, rfl, rfl, rfl⟩
  obtain ⟨hstep, hsecond, hprev, hsecondStep, hskip, hwarm, hfreq, hres, hstrap1, hstrap2⟩ := hrest
  have hwarmEnd : (takeSecondBoundary s).wires.warmEnd
      = (s.wires.warmEnd || decide (s.tsu.warmCount = 1)) := by
    rw [takeSecondBoundary_wires h, secondBegun_wires]; rfl
  have hzero : (∀ p, s.tsu.step = some p → p.value = 0) → pendingValue s.tsu = 0 := fun hp => by
    rcases hs : s.tsu.step with _ | p
    · exact pendingValue_of_none hs
    · exact (pendingValue_of_some hs).trans (hp p hs)
  refine ⟨_, rfl, fun hs hx => ?_, fun p hs h0 hx => ?_, fun p hs hneg => ?_, hstep, hsecond, hprev,
    fun hs => ?_, fun p hs => ⟨?_, fun hpos => ?_, fun hle => ?_⟩, fun hp => ?_, fun hp => ?_,
    fun p hs hp => ?_, fun p hs hp hd => ?_, fun p e rest hs hp hlog hlen hneeded hold hlast => ?_,
    fun hshort => ?_, fun hw => ⟨?_, ?_⟩, fun hw => ⟨?_, hwarmEnd⟩, hfreq, hres, hstrap1, hstrap2,
    takeSecondBoundary_frame s⟩
  · rw [hfrac.1, hfrac.2.1, hfrac.2.2]
    have hs' : (labelSettled s.tsu).step = none := hs
    simp only [startSecond, hs', setFraction_of_lt hx]
    exact ⟨trivial, trivial, trivial⟩
  · rw [hfrac.1, hfrac.2.1, hfrac.2.2]
    have hs' : (labelSettled s.tsu).step = some p := hs
    by_cases hpos : 0 < p.value
    · simp only [startSecond, hs', if_pos hpos, setFraction_of_lt (by omega : p.value.toNat + x < 1000000000000)]
      exact ⟨by omega, trivial, trivial⟩
    · simp only [startSecond, hs', if_neg hpos, if_neg (by omega : ¬p.value < 0),
        setFraction_of_lt (by omega : x < 1000000000000)]
      exact ⟨by omega, trivial, trivial⟩
  · rw [hfrac.1, hfrac.2.1, hfrac.2.2]
    have hs' : (labelSettled s.tsu).step = some p := hs
    simp only [startSecond, hs', if_neg (by omega : ¬0 < p.value), if_pos hneg]
    exact ⟨trivial, trivial, trivial⟩
  · rw [hsecondStep, hskip, pendingValue_of_none hs]
    exact ⟨rfl, rfl⟩
  · rw [hsecondStep, pendingValue_of_some hs]
  · rw [hskip, pendingValue_of_some hs, if_pos hpos]
    omega
  · rw [hskip, pendingValue_of_some hs, if_neg (by omega)]
  · have hle : ¬0 < pendingValue s.tsu := by
      rcases hs : s.tsu.step with _ | p
      · rw [pendingValue_of_none hs]; decide
      · rw [pendingValue_of_some hs]; exact Int.not_lt.mpr (hp p hs)
    rw [takeSecondBoundary_eq h, if_neg hle]
    have hd : (boundaryDelivered x s).ptu = s.ptu := (boundaryDelivered_frame x s).ptu_eq (by decide)
    exact ite_cases (P := fun t : State => t.ptu = s.ptu) hd hd
  · obtain ⟨hlog, hlogged, -⟩ := takeSecondBoundary_log_of_zero h (hzero hp)
    exact ⟨hlog, hlogged⟩
  · exact (takeSecondBoundary_log h (pendingValue_of_some hs ▸ hp)).2.1
  · obtain ⟨d, hd⟩ := hd
    have hv : pendingValue s.tsu ≠ 0 := pendingValue_of_some hs ▸ hp
    obtain ⟨hlog, hlogged, -⟩ := takeSecondBoundary_log h hv
    rw [hlog, hlogged, (takeSecondBoundary_label h).1, List.filter_append,
      List.filter_cons_of_pos (entryNeeded_newer h hv hd (l := newEntry s) (Nat.lt_succ_self _)),
      List.filter_nil, List.getLast?_concat, ← pendingValue_of_some hs]
    exact ⟨_, rfl, rfl, rfl, rfl⟩
  · have hv : pendingValue s.tsu ≠ 0 := pendingValue_of_some hs ▸ hp
    obtain ⟨hcap, hkept⟩ := takeSecondBoundary_drop h hv hlog hlen hneeded
    have hdiv : ∀ d : DividerId, (takeSecondBoundary s).cap.div[d]
        = endChainBefore e.entry s.cap.div[d] := fun d => by
      rw [hcap]; exact Vector.getElem_map ..
    refine ⟨by rw [hcap], fun d ch hc hlt => ?_, fun d hd => ?_, fun hmem => ?_, ?_,
      fun l hl d ch hc hlt => ?_⟩
    · rw [hdiv, endChainBefore_of_older hc hlt]
    · rw [hdiv, endChainBefore_of_newer hd]
    · rw [hkept] at hmem
      obtain hmem | hmem := List.mem_append.mp (List.mem_filter.mp hmem).1
      · exact absurd (hold e hmem) (lt_irrefl _)
      · rw [List.mem_singleton.mp hmem] at hlast
        exact absurd hlast (Nat.not_succ_le_self _)
    · rw [hkept]
      refine (List.length_filter_le ..).trans ?_
      rw [List.length_append, hlen]
      exact le_refl _
    · rw [hkept]
      refine List.mem_filter.mpr ⟨List.mem_append_left _ hl, entryNeeded_of_chain (d := d) ?_ hlt⟩
      rw [boundaryDelivered_cap h]
      exact hc
  · exact takeSecondBoundary_no_drop h (hshort.imp_right fun hs => hs.imp_left hzero)
  · rw [hwarm, hw]
  · rw [hwarmEnd, hw]; exact Bool.or_false _
  · rw [hwarm]; omega

end Sys2Proof.Machine
end

section
/-! PROOFS. The timescale's parked requests at a boundary, the loop's notices to it, and its three
requests. -/

namespace Sys2Proof.Machine

open Sys2Proof.Safety Config

/-! ### Completions (R171) -/

theorem complete_slots_ne {n m : Slot} (h : n ≠ m) (k : Completion) (l : Label) (ws : List Word)
    (s : State) : (complete n k l ws s).xu.slots[m] = s.xu.slots[m] := by
  by_cases ht : s.xu.slots[n].state = .taken
  · rw [(complete_of_taken k l ws ht).1, updAt_ne _ _ h]
  · rw [complete_of_ne k l ws ht]

theorem complete_slots_self {n : Slot} {s : State} (k : Completion) (l : Label) (ws : List Word)
    (h : s.xu.slots[n].state = .taken) : (complete n k l ws s).xu.slots[n] = { s.xu.slots[n] with
      params := overwrite s.xu.slots[n].params ws, code := k.code, label := l, state := .done } := by
  rw [(complete_of_taken k l ws h).1, updAt_self]

theorem complete_xu (n : Slot) (k : Completion) (l : Label) (ws : List Word) (s : State) :
    (complete n k l ws s).xu = { s.xu with
      slots := (complete n k l ws s).xu.slots
      attn := (complete n k l ws s).xu.attn
      inta := (complete n k l ws s).xu.inta
      intb := (complete n k l ws s).xu.intb } := by
  unfold complete
  split <;> rfl

/-- A further completion of a slot that is TAKEN yet (R171). -/
theorem changesXu_complete {s u : State} {slots : Vector RequestSlot 16} {held : Option Slot} {n : Slot}
    (k : Completion) (l : Label) (h : ChangesXu slots held [] s u) (hn : slots[n] = s.xu.slots[n])
    (ht : s.xu.slots[n].state = .taken) :
    ChangesXu (slots.set n (doneSlot n k.code l s)) held [] s (complete n k l [] u)
      ∧ (complete n k l [] u).xu.attn[clsDone]
        = { u.xu.attn[clsDone] with pending := true, count := u.xu.attn[clsDone].count + 1 } := by
  obtain ⟨hxu, hattn⟩ := h
  have hslots : u.xu.slots = slots := by rw [hxu]
  have htaken : u.xu.slots[n].state = .taken := by rw [hslots, hn, ht]
  obtain ⟨hset, hdone⟩ := complete_of_taken k l [] htaken
  have hnew : (complete n k l [] u).xu.slots = slots.set n (doneSlot n k.code l s) := by
    rw [hset, hslots, updAt, overwrite_nil, hn]
    rfl
  refine ⟨⟨?_, attnBumped_complete k l [] htaken (by rw [ht]; decide) hattn⟩, hdone⟩
  rw [← hnew]
  exact (complete_xu n k l [] u).trans (by rw [hxu])

/-- Only completions have changed the exchange unit: a slot still TAKEN is as it was, and the classes
are bumped as R172 says. -/
def CompletedFrom (s t : State) : Prop :=
  t.xu = { s.xu with slots := t.xu.slots, attn := t.xu.attn, inta := t.xu.inta, intb := t.xu.intb }
  ∧ (∀ m : Slot, t.xu.slots[m].state = .taken → t.xu.slots[m] = s.xu.slots[m]) ∧ AttnBumped [] s t

theorem completedFrom_of_eq {s t : State} (hx : t.xu = s.xu) (ha : t.alu.entries = s.alu.entries)
    (hq : t.qsu.selected = s.qsu.selected)
    (hp : ∀ p : Port, t.ptu.ports[p].state = s.ptu.ports[p].state) : CompletedFrom s t :=
  ⟨by rw [hx], fun m _ => by rw [hx], attnBumped_none (by rw [hx]) (by rw [hx]) ha hq hp⟩

theorem CompletedFrom.complete {s t : State} (h : CompletedFrom s t) (n : Slot) (k : Completion)
    (l : Label) (ws : List Word) : CompletedFrom s (complete n k l ws t) := by
  by_cases ht : t.xu.slots[n].state = .taken
  · obtain ⟨hxu, hslots, hattn⟩ := h
    refine ⟨?_, fun m hm => ?_, attnBumped_complete k l ws ht ?_ hattn⟩
    · exact (complete_xu n k l ws t).trans (by rw [hxu])
    · by_cases hnm : n = m
      · subst hnm
        rw [complete_slots_self k l ws ht] at hm
        cases hm
      · rw [complete_slots_ne hnm] at hm ⊢
        exact hslots m hm
    · rw [← hslots n ht, ht]; decide
  · rwa [complete_of_ne k l ws ht]

/-- The account of the bumps reads the ports' states alone. -/
theorem attnBumped_of_same_states {extra : List AttnClass} {s t u : State} (hx : t.xu = u.xu)
    (ha : t.alu = u.alu) (hq : t.qsu = u.qsu)
    (hp : ∀ p : Port, t.ptu.ports[p].state = u.ptu.ports[p].state) (hb : AttnBumped extra s u) :
    AttnBumped extra s t := by
  rintro c n rfl
  have hs : bumpsShown s t c = bumpsShown s u c := by
    unfold bumpsShown
    simp only [hx, ha, hq, hp]
  rw [hx, hs]
  exact hb c _ rfl

theorem CompletedFrom.of_same_states {s t u : State} (h : CompletedFrom s u) (hx : t.xu = u.xu)
    (ha : t.alu = u.alu) (hq : t.qsu = u.qsu)
    (hp : ∀ p : Port, t.ptu.ports[p].state = u.ptu.ports[p].state) : CompletedFrom s t := by
  obtain ⟨hxu, hslots, hattn⟩ := h
  refine ⟨?_, ?_, attnBumped_of_same_states hx ha hq hp hattn⟩
  · rw [hx]; exact hxu
  · rw [hx]; exact hslots

/-! ### Resumed ports keep their states (R128, R130) -/

theorem updPort_states {f : PortEntry → PortEntry} (hf : ∀ e, (f e).state = e.state) (s : State)
    (p q : Port) : (s.updPort p f).ptu.ports[q].state = s.ptu.ports[q].state := by
  change (updAt s.ptu.ports p f)[q].state = _
  rw [updAt_get]
  split
  · rename_i h; subst h; exact hf _
  · rfl

theorem resumePort_states (p q : Port) (s : State) :
    (resumePort p s).ptu.ports[q].state = s.ptu.ports[q].state := by
  refine resumePort_cases (P := fun t : State => t.ptu.ports[q].state = s.ptu.ports[q].state) p s ?_
    (fun pr _ => updPort_states (fun e => (resumePeriod_keeps s.tsu pr e).1) s p q) rfl
  rcases ha : s.ptu.ports[p].armed with _ | ⟨plan, rest⟩
  · rw [beginPeriod_nil ha]
  · rw [beginPeriod_cons ha, notifyMeas_ports]
    exact updPort_states (fun e => (startEntry_keeps ..).1) s p q

theorem resumePorts_states (s : State) (q : Port) :
    (resumePorts s).ptu.ports[q].state = s.ptu.ports[q].state := by
  unfold resumePorts
  exact foldl_keeps (P := fun t : State => t.ptu.ports[q].state = s.ptu.ports[q].state)
    (f := fun s p => resumePort p s) (fun u p hu => (resumePort_states p q u).trans hu)
    (List.finRange 12) (s := s) rfl

/-! ### The parked requests (R6, R7, R10) -/

section
variable {t : Tsu} {label : Label} {s : State} {m : Slot}

theorem completeSetTime_completed {u : State} (h : CompletedFrom u s) :
    CompletedFrom u (completeSetTime t label s) := by
  unfold completeSetTime
  split
  · exact h
  · exact h.complete ..

theorem completeLeap_completed {u : State} (h : CompletedFrom u s) :
    CompletedFrom u (completeLeap t label s) := by
  unfold completeLeap
  split
  · exact h.complete ..
  · exact h.complete ..
  · exact h

theorem completeStep_completed {u : State} (h : CompletedFrom u s) :
    CompletedFrom u (completeStep t label s) := by
  unfold completeStep
  split
  · exact h.complete ..
  · exact h

theorem completeSetTime_slot_ne (h : ∀ l, t.setTime ≠ some ⟨l, m⟩) :
    (completeSetTime t label s).xu.slots[m] = s.xu.slots[m] := by
  unfold completeSetTime
  split
  · rfl
  · rename_i p hp
    exact complete_slots_ne (fun he => h p.label (by rw [hp, ← he])) ..

theorem completeLeap_slot_ne (h : ∀ o k, t.leap ≠ some ⟨o, k, m⟩) :
    (completeLeap t label s).xu.slots[m] = s.xu.slots[m] := by
  unfold completeLeap
  split
  · rename_i l hl _
    exact complete_slots_ne (fun he => h l.target l.kind (by rw [hl, ← he])) ..
  · rename_i l hl _
    exact complete_slots_ne (fun he => h l.target l.kind (by rw [hl, ← he])) ..
  · rfl

theorem completeStep_slot_ne (h : ∀ v, t.step ≠ some (.host v m)) :
    (completeStep t label s).xu.slots[m] = s.xu.slots[m] := by
  unfold completeStep
  split
  · rename_i v n hn
    exact complete_slots_ne (fun he => h v (by rw [hn, ← he])) ..
  · rfl

/-- The new label, told from the pending SET-TIME and the label by the leap table. -/
theorem decideLabel_label {byLeap new : Label} (hby : (labelByLeap t.label t.leap).label = byLeap)
    (h1 : t.setTime = none → new = byLeap) (h2 : ∀ l n, t.setTime = some ⟨l, n⟩ → new = l) :
    (decideLabel t).label = new := by
  rcases hs : t.setTime with _ | p
  · simp only [decideLabel, hs, hby, h1 hs]
  · simp only [decideLabel, hs]
    exact (h2 p.label p.slot hs).symm

/-- The label by the table of R6. -/
theorem labelByLeap_label {byLeap : Label}
    (h0 : (∀ k n, t.leap ≠ some ⟨t.label, k, n⟩) → byLeap = t.label + 1)
    (h1 : ∀ n, t.leap = some ⟨t.label, .insert, n⟩ → byLeap = t.label)
    (h2 : ∀ n, t.leap = some ⟨t.label, .delete, n⟩ → byLeap = t.label + 2) :
    (labelByLeap t.label t.leap).label = byLeap := by
  rcases hl : t.leap with _ | ⟨target, kind, n⟩
  · exact (h0 (by rw [hl]; nofun)).symm
  · by_cases ht : t.label = target
    · subst ht
      simp only [labelByLeap, if_pos]
      cases kind with
      | insert => exact (h1 n hl).symm
      | delete => exact (h2 n hl).symm
    · have hb : byLeap = t.label + 1 := h0 fun k m he => ht (by
        rw [hl] at he; injection he with he; injection he with he; exact he.symm)
      simp only [labelByLeap, if_neg ht]
      rw [hb]
      split <;> rfl

end

section
variable {x : Nat} {s : State} (h : s.tsu.due = some x)
include h

theorem takeSecondBoundary_slots : (takeSecondBoundary s).xu.slots
    = (completeStep s.tsu (decideLabel s.tsu).label (completeLeap s.tsu (decideLabel s.tsu).label
        (completeSetTime s.tsu (decideLabel s.tsu).label (secondBegun x s)))).xu.slots := by
  have hlabel : (secondBegun x s).tsu.label = (decideLabel s.tsu).label := by
    rw [secondBegun_tsu, startSecond_rest]; rfl
  rw [takeSecondBoundary_xu h, parkedCompleted, completeAtBoundary_eq, hlabel]

theorem takeSecondBoundary_completed : CompletedFrom s (takeSecondBoundary s) := by
  have hb := secondBegun_frame x s
  have h0 : CompletedFrom s (secondBegun x s) :=
    completedFrom_of_eq (hb.xu_eq (by decide)) (by rw [hb.alu_eq (by decide)])
      (by rw [hb.qsu_eq (by decide)]) fun p => by rw [hb.ptu_eq (by decide)]
  have hd : CompletedFrom s (boundaryDelivered x s) :=
    completeStep_completed (completeLeap_completed (completeSetTime_completed h0))
  have hp : CompletedFrom s (if pendingValue s.tsu = 0 then boundaryDelivered x s
      else pruneLog (boundaryDelivered x s)) :=
    ite_cases (P := CompletedFrom s) hd (hd.of_same_states rfl rfl rfl fun _ => rfl)
  rw [takeSecondBoundary_eq h]
  have hf := resumePorts_frame (if pendingValue s.tsu = 0 then boundaryDelivered x s
      else pruneLog (boundaryDelivered x s))
  exact ite_cases (P := CompletedFrom s) (hp.of_same_states (hf.xu_eq (by decide))
    (hf.alu_eq (by decide)) (hf.qsu_eq (by decide)) (resumePorts_states _)) hp

end

theorem overwrite_take (p : Vector Word 24) {ws : List Word} (h : ws.length ≤ 24) :
    (overwrite p ws).toList.take ws.length = ws := by
  refine List.ext_getElem ?_ fun i h1 h2 => ?_
  · simpa using h
  · simp [overwrite, h2]

theorem overwrite_get (p : Vector Word 24) {ws : List Word} {i : Fin 24} (h : ws.length ≤ i.val) :
    (overwrite p ws)[i] = p[i] := by
  simp [overwrite, List.getElem?_eq_none h]

/-- What a SET-TIME does to a scheduled leap, and a boundary without one (R6, R7). -/
theorem decideLabel_fate {t : Tsu} {o : Label} {k : LeapKind} {n : Slot} {missed : Prop}
    (hl : t.leap = some ⟨o, k, n⟩)
    (hm : missed ↔ t.setTime = none ∧ o.toNat < t.label.toNat ∨ ∃ l a, t.setTime = some ⟨l, a⟩
      ∧ (t.label.toNat + 1 < o.toNat ∧ o.toNat < l.toNat ∨ o.toNat + 1 < l.toNat)) :
    (t.setTime = none → o = t.label → (decideLabel t).fate = .executed)
      ∧ (missed → (decideLabel t).fate = .missed)
      ∧ (¬missed → ¬(t.setTime = none ∧ o = t.label) → (decideLabel t).fate = .kept) := by
  rcases hs : t.setTime with _ | ⟨l, a⟩
  · have hd : decideLabel t = labelByLeap t.label (some ⟨o, k, n⟩) := by
      simp only [decideLabel, hs, hl]
    have hmiss : missed ↔ o.toNat < t.label.toNat := by
      rw [hm, hs]; simp
    rw [hd, hmiss]
    refine ⟨fun _ ho => ?_, fun hlt => ?_, fun hge hne => ?_⟩
    · subst ho
      simp only [labelByLeap, if_pos]
      cases k <;> rfl
    · have hne : ¬t.label = o := fun he => absurd hlt (by rw [he]; exact lt_irrefl _)
      simp only [labelByLeap, if_neg hne, if_pos hlt]
    · have hne' : ¬t.label = o := fun he => hne ⟨rfl, he.symm⟩
      simp only [labelByLeap, if_neg hne', if_neg hge]
  · have hd : (decideLabel t).fate = fateBySetTime t.label l (some ⟨o, k, n⟩) := by
      simp only [decideLabel, hs, hl]
    have hmiss : missed ↔ (t.label.toNat + 1 < o.toNat ∧ o.toNat < l.toNat ∨ o.toNat + 1 < l.toNat) := by
      rw [hm, hs]; simp
    rw [hd, hmiss]
    refine ⟨nofun, fun h => ?_, fun h _ => ?_⟩
    · by_cases h1 : t.label.toNat + 1 < o.toNat ∧ o.toNat < l.toNat
      · exact if_pos h1
      · exact (if_neg h1).trans (if_pos (h.resolve_left h1))
    · rw [not_or] at h
      exact (if_neg h.1).trans (if_neg h.2)

/-- Settles O21. -/
theorem boundaryCompletesTheParked : Obligations.BoundaryCompletesTheParked := by
  intro s x byLeap new h h0 h1 h2 hn1 hn2
  have hby := labelByLeap_label h0 h1 h2
  have hnew := decideLabel_label hby hn1 hn2
  obtain ⟨hxu, -, hattn⟩ := takeSecondBoundary_completed h
  have hslots := takeSecondBoundary_slots h
  rw [hnew] at hslots
  have hbegun : (secondBegun x s).xu.slots = s.xu.slots := by
    rw [(secondBegun_frame x s).xu_eq (by decide)]
  refine ⟨_, rfl, fun l n hl ht hleap hstep => ?_, fun o k n missed hl ht htime hstep hmissed => ?_,
    fun v n hs ht htime hleap => ?_, fun n htime hleap hstep => ?_, ?_, hxu, hattn⟩
  · have hslot : (takeSecondBoundary s).xu.slots[n] = { s.xu.slots[n] with
        params := overwrite s.xu.slots[n].params (labelWords byLeap)
        code := 1, label := new, state := .done } := by
      rw [hslots, completeStep_slot_ne hstep, completeLeap_slot_ne hleap]
      simp only [completeSetTime, hl, hby]
      rw [complete_slots_self _ _ _ (by rw [hbegun]; exact ht), hbegun]
      rfl
    rw [hslot]
    have htake := overwrite_take s.xu.slots[n].params (ws := labelWords byLeap)
      (by rw [labelWords_length]; decide)
    rw [labelWords_length] at htake
    exact ⟨rfl, htake, fun i hi => overwrite_get _ (by rwa [labelWords_length])⟩
  · obtain ⟨hexec, hmiss, hkept⟩ := decideLabel_fate hl hmissed
    have hset : (completeSetTime s.tsu new (secondBegun x s)).xu.slots[n] = s.xu.slots[n] := by
      rw [completeSetTime_slot_ne htime, hbegun]
    have htaken : (completeSetTime s.tsu new (secondBegun x s)).xu.slots[n].state = .taken := by
      rw [hset]; exact ht
    rw [hslots, completeStep_slot_ne hstep]
    refine ⟨fun hs ho => ?_, fun hm => ?_, fun hm hne => ?_⟩
    · simp only [completeLeap, hl, hexec hs ho]
      rw [complete_slots_self _ _ _ htaken, hset, overwrite_nil]
      rfl
    · simp only [completeLeap, hl, hmiss hm]
      rw [complete_slots_self _ _ _ htaken, hset, overwrite_nil]
      rfl
    · simp only [completeLeap, hl, hkept hm hne]
      exact hset
  · have hset : (completeLeap s.tsu new (completeSetTime s.tsu new (secondBegun x s))).xu.slots[n]
        = s.xu.slots[n] := by
      rw [completeLeap_slot_ne hleap, completeSetTime_slot_ne htime, hbegun]
    rw [hslots]
    simp only [completeStep, hs]
    rw [complete_slots_self _ _ _ (by rw [hset]; exact ht), hset, overwrite_nil]
    rfl
  · rw [hslots, completeStep_slot_ne hstep, completeLeap_slot_ne hleap, completeSetTime_slot_ne htime,
      hbegun]
  · have hdone := congrArg Attention.count (hattn clsDone _ rfl)
    rw [hdone, ← List.countP_eq_length_filter]
    rfl

/-! ### The hold's end and the loop's notices (R10 to R12) -/

theorem takeHoldEnd_eq {s : State} {h : Hold} (hs : s.tsu.hold = some h) (hrun : h.length ≤ h.run)
    (hlt : h.run - h.length < 1000000000000) : takeHoldEnd s =
      { s with tsu := { s.tsu with hold := none, frac := h.run - h.length } } := by
  simp only [takeHoldEnd, hs, if_pos hrun, setFraction_of_lt hlt]
  rfl

theorem takeLoopStep_eq {s : State} {v : Int} {rest : List TsuEvent}
    (hw : s.wires.tsuIn = .step v :: rest) (hs : ∀ w slot, s.tsu.step ≠ some (.host w slot)) :
    takeLoopStep s = { s with
      tsu := { s.tsu with step := some (.loop v) }
      wires := { s.wires with tsuIn := rest } } := by
  simp only [takeLoopStep, hw]
  split
  · rename_i w slot hstep; exact absurd hstep (hs w slot)
  · rfl

theorem takeLoopStateTsu_eq {s : State} {before after : LoopState} {rest : List TsuEvent}
    (hw : s.wires.tsuIn = .state before after :: rest) : takeLoopStateTsu s =
      withdrawStep before after (s.setWires { s.wires with tsuIn := rest }) := by
  simp only [takeLoopStateTsu, hw]

section
variable {before after : LoopState} {s : State}

theorem withdrawStep_none (h : s.tsu.step = none) : withdrawStep before after s = s := by
  simp only [withdrawStep, h]

theorem withdrawStep_loop {v : Int} (h : s.tsu.step = some (.loop v)) : withdrawStep before after s =
    if before = .acquire then s.setTsu { s.tsu with step := none } else s := by
  simp only [withdrawStep, h]

theorem withdrawStep_host {v : Int} {n : Slot} (h : s.tsu.step = some (.host v n)) :
    withdrawStep before after s =
      if (before = .freeRun ∨ before = .holdover) ∧ after ≠ .freeRun ∧ after ≠ .holdover then
        completeNow n .notPermitted (s.setTsu { s.tsu with step := none })
      else s := by
  simp only [withdrawStep, h]

end

/-- Settles O22. -/
theorem holdEndAndLoopNotices : Obligations.HoldEndAndLoopNotices := by
  refine ⟨fun s h hs hrun hlt => congrArg Host.Outcome.next (takeHoldEnd_eq hs hrun hlt),
    fun s v rest hw hs => congrArg Host.Outcome.next (takeLoopStep_eq hw hs),
    fun s before after rest hw => ⟨_, congrArg Host.Outcome.next (takeLoopStateTsu_eq hw), ?_⟩⟩
  generalize hu : s.setWires { s.wires with tsuIn := rest } = u
  have htsu : u.tsu = s.tsu := by subst hu; rfl
  have hxu : u.xu = s.xu := by subst hu; rfl
  have hframe := withdrawStep_frame before after u
  have hwires : u.wires = { s.wires with tsuIn := rest } := by subst hu; rfl
  refine ⟨fun v hs hb => ?_, fun v hs hb => ?_, fun v hs => ?_, fun v n hs hb h1 h2 => ?_,
    fun v n hs hb => ?_, fun hs => ?_, (hframe.wires_eq (by decide)).trans hwires, ?_⟩
  · rw [withdrawStep_loop (htsu ▸ hs), if_pos hb, ← htsu]; rfl
  · rw [withdrawStep_loop (htsu ▸ hs), if_neg hb, htsu]
  · rw [withdrawStep_loop (htsu ▸ hs)]
    exact ite_cases (P := fun t : State => t.xu = s.xu) hxu hxu
  · rw [withdrawStep_host (htsu ▸ hs), if_pos ⟨hb, h1, h2⟩]
    subst hu
    refine ⟨by rw [completeNow_tsu]; rfl, fun ht => ?_, fun ht => ?_⟩
    · obtain ⟨hc, ha⟩ := completeNow_changes (s := { s with
        wires := { s.wires with tsuIn := rest }, tsu := { s.tsu with step := none } })
        .notPermitted s.xu.unit ht
      exact ⟨hc, (congrArg Attention.count ha :), (congrArg Attention.pending ha :)⟩
    · rw [completeNow, complete_of_ne _ _ _ (by exact ht)]
      rfl
  · have hcond : ¬((before = .freeRun ∨ before = .holdover) ∧ after ≠ .freeRun ∧ after ≠ .holdover) := by
      rintro ⟨h1, h2, h3⟩
      obtain ⟨h4, h5⟩ | h4 | h4 := hb
      · exact h1.elim h4 h5
      · exact h2 h4
      · exact h3 h4
    rw [withdrawStep_host (htsu ▸ hs), if_neg hcond]
    exact ⟨htsu, hxu⟩
  · rw [withdrawStep_none (htsu ▸ hs)]
    exact ⟨htsu, hxu⟩
  · subst hu
    exact KeepsAllBut.trans ((setWires_frame s _).mono (by decide)) (hframe.mono (by decide))

/-! ### Requests (R8, R9, R11) -/

/-- The unit's hand emptied, as an owner takes the held request (R170). -/
def handEmptied (s : State) : State := s.setXu { s.xu with unit := none }

/-- An earlier request completed SUPERSEDED as another takes its place. -/
theorem superseded_changes {m : Slot} {s : State} (h : s.xu.slots[m].state = .taken) :
    ChangesXu (s.xu.slots.set m (doneSlot m 3 s.tsu.label s)) none [] s
        (completeNow m .superseded (handEmptied s))
      ∧ (completeNow m .superseded (handEmptied s)).xu.attn[clsDone].count
        = s.xu.attn[clsDone].count + 1
      ∧ (completeNow m .superseded (handEmptied s)).xu.attn[clsDone].pending = true := by
  obtain ⟨hc, ha⟩ := completeNow_changes .superseded none h
  exact ⟨hc, (congrArg Attention.count ha :), (congrArg Attention.pending ha :)⟩

theorem superseded_parks {m : Slot} {s : State} (h : s.xu.slots[m].state ≠ .taken) :
    completeNow m .superseded (handEmptied s) = handEmptied s := complete_of_ne _ _ _ h

/-- SET-TIME, STEP-PHASE and SCHEDULE-LEAP each take the request they hold. -/
theorem exec_timeRequest {n : Slot} {s : State} :
    (Held n 9 s → exec .setTime s = .next (takeSetTime n s.xu.slots[n].params (handEmptied s)))
    ∧ (Held n 10 s → exec .stepPhase s = .next (takeStepPhase n s.xu.slots[n].params (handEmptied s)))
    ∧ (Held n 11 s →
      exec .scheduleLeap s = .next (takeScheduleLeap n s.xu.slots[n].params (handEmptied s))) :=
  ⟨fun h => congrArg Host.Outcome.next (takeRequest_held _ h),
    fun h => congrArg Host.Outcome.next (takeRequest_held _ h),
    fun h => congrArg Host.Outcome.next (takeRequest_held _ h)⟩

theorem handEmptied_frame (s : State) : KeepsAllBut [.xu] s (handEmptied s) := keepsAllBut_setXu s _

theorem setTime_becomesPending (s : State) (n : Slot) (p : Vector Word 24) (hh : Held n 9 s)
    (hp : p = s.xu.slots[n].params) : ∃ t, exec .setTime s = .next t
    ∧ (Params.w p 3 ≠ 0 → t.tsu = s.tsu ∧ CompletesHeld n 5 s.tsu.label s t)
    ∧ (Params.w p 3 = 0 → t.tsu = { s.tsu with setTime := some ⟨Params.b3 p 0, n⟩ }
        ∧ (s.tsu.setTime = none → ParksHeld s t)
        ∧ (∀ l m, s.tsu.setTime = some ⟨l, m⟩ → s.xu.slots[m].state = .taken →
            ChangesXu (s.xu.slots.set m (doneSlot m 3 s.tsu.label s)) none [] s t
            ∧ t.xu.attn[clsDone].count = s.xu.attn[clsDone].count + 1
            ∧ t.xu.attn[clsDone].pending = true)
        ∧ (∀ l m, s.tsu.setTime = some ⟨l, m⟩ → s.xu.slots[m].state ≠ .taken → ParksHeld s t))
    ∧ KeepsAllBut [.tsu, .xu] s t := by
  subst hp
  refine ⟨_, exec_timeRequest.1 hh, fun hw => ?_, fun hw => ?_,
    ((handEmptied_frame s).mono (by decide)).trans (takeSetTime_frame ..)⟩
  · have hl : Params.label4 s.xu.slots[n].params 0 = none := if_neg hw
    simp only [takeSetTime, hl]
    exact ⟨completeNow_tsu .., completeNow_held .invalid hh⟩
  · have hl : Params.label4 s.xu.slots[n].params 0 = some (Params.b3 s.xu.slots[n].params 0) := if_pos hw
    rcases hs : s.tsu.setTime with _ | old
    · have hs' : (handEmptied s).tsu.setTime = none := hs
      simp only [takeSetTime, hl, hs']
      exact ⟨rfl, fun _ => rfl, nofun, nofun⟩
    · have hs' : (handEmptied s).tsu.setTime = some old := hs
      simp only [takeSetTime, hl, hs']
      refine ⟨?_, nofun, ?_, ?_⟩
      · rw [State.setTsu_tsu, completeNow_tsu]; rfl
      · rintro l m hm ht
        cases hm
        exact superseded_changes ht
      · rintro l m hm ht
        cases hm
        exact congrArg State.xu (superseded_parks ht)

theorem stepPhase_becomesPending (s : State) (n : Slot) (p : Vector Word 24) (free : Prop)
    (hh : Held n 10 s) (hp : p = s.xu.slots[n].params)
    (hfree : free ↔ s.lpu.state = .freeRun ∨ s.lpu.state = .holdover) :
    ∃ t, exec .stepPhase s = .next t
    ∧ (500000000000 < (Params.i3 p 0).natAbs →
        t.tsu = s.tsu ∧ CompletesHeld n 5 s.tsu.label s t)
    ∧ ((Params.i3 p 0).natAbs ≤ 500000000000 → ¬free →
        t.tsu = s.tsu ∧ CompletesHeld n 6 s.tsu.label s t)
    ∧ ((Params.i3 p 0).natAbs ≤ 500000000000 → free →
        t.tsu = { s.tsu with step := some (.host (Params.i3 p 0) n) }
        ∧ (s.tsu.step = none ∨ (∃ v, s.tsu.step = some (.loop v)) → ParksHeld s t)
        ∧ (∀ v m, s.tsu.step = some (.host v m) → s.xu.slots[m].state = .taken →
            ChangesXu (s.xu.slots.set m (doneSlot m 3 s.tsu.label s)) none [] s t
            ∧ t.xu.attn[clsDone].count = s.xu.attn[clsDone].count + 1
            ∧ t.xu.attn[clsDone].pending = true)
        ∧ (∀ v m, s.tsu.step = some (.host v m) → s.xu.slots[m].state ≠ .taken → ParksHeld s t))
    ∧ KeepsAllBut [.tsu, .xu] s t := by
  subst hp
  have hbound : (stepBound : Int) = 500000000000 := rfl
  refine ⟨_, exec_timeRequest.2.1 hh, fun hbig => ?_, fun hle hnot => ?_, fun hle hf => ?_,
    ((handEmptied_frame s).mono (by decide)).trans (takeStepPhase_frame ..)⟩
  · unfold takeStepPhase
    rw [if_pos (by rw [hbound]; omega)]
    exact ⟨completeNow_tsu .., completeNow_held .invalid hh⟩
  · have hst : (handEmptied s).lpu.state ≠ .freeRun ∧ (handEmptied s).lpu.state ≠ .holdover := by
      rw [hfree, not_or] at hnot; exact hnot
    unfold takeStepPhase
    rw [if_neg (by rw [hbound]; omega), if_pos hst]
    exact ⟨completeNow_tsu .., completeNow_held .notPermitted hh⟩
  · have hst : ¬((handEmptied s).lpu.state ≠ .freeRun ∧ (handEmptied s).lpu.state ≠ .holdover) := by
      rintro ⟨h1, h2⟩
      exact (hfree.mp hf).elim h1 h2
    unfold takeStepPhase
    rw [if_neg (by rw [hbound]; omega), if_neg hst]
    rcases hs : s.tsu.step with _ | ⟨v, m⟩ | v
    · have hs' : (handEmptied s).tsu.step = none := hs
      simp only [hs']
      exact ⟨rfl, fun _ => rfl, nofun, nofun⟩
    · have hs' : (handEmptied s).tsu.step = some (.host v m) := hs
      simp only [hs']
      refine ⟨?_, ?_, ?_, ?_⟩
      · rw [State.setTsu_tsu, completeNow_tsu]; rfl
      · rintro (h | ⟨v, h⟩) <;> cases h
      · rintro v m hm ht
        cases hm
        exact superseded_changes ht
      · rintro v m hm ht
        cases hm
        exact congrArg State.xu (superseded_parks ht)
    · have hs' : (handEmptied s).tsu.step = some (.loop v) := hs
      simp only [hs']
      exact ⟨rfl, fun _ => rfl, nofun, nofun⟩

/-! SCHEDULE-LEAP (R9) -/

theorem setLeap_eq (l : Option ScheduledLeap) (s : State) : setLeap l s = { s with
    tsu := { s.tsu with leap := l }
    wires := { s.wires with conds := s.wires.conds ++ handed 16 s.tsu.leap.isSome l.isSome } } := by
  rw [setLeap, handIfChanged_eq]
  rfl

theorem supersedeLeap_none {s : State} (h : s.tsu.leap = none) : supersedeLeap s = s := by
  simp only [supersedeLeap, h]

theorem supersedeLeap_some {s : State} {l : ScheduledLeap} (h : s.tsu.leap = some l) :
    supersedeLeap s = completeNow l.slot .superseded s := by
  simp only [supersedeLeap, h]

theorem leapFormOf_of_bad {w : Word} (h : w = 0 ∨ 3 < w.toNat) : leapFormOf w = none := by
  unfold leapFormOf
  rw [if_neg, if_neg, if_neg]
  all_goals
    rintro rfl
    exact absurd h (by decide)

theorem leapFormOf_schedule {w : Word} (h : w = 1 ∨ w = 2) : ∃ k, leapFormOf w = some (.schedule k)
    ∧ w = (match k with | LeapKind.insert => 1 | .delete => 2) := by
  obtain rfl | rfl := h
  · exact ⟨.insert, rfl, rfl⟩
  · exact ⟨.delete, rfl, rfl⟩

/-- A leap scheduled over an earlier one completes that request SUPERSEDED (R9). -/
theorem scheduleLeap_schedules {s : State} {n : Slot} {p : Params} {k : LeapKind}
    (hform : leapFormOf (Params.w p 4) = some (.schedule k)) (hlabel : Params.w p 3 = 0)
    (hle : s.tsu.label.toNat ≤ (Params.b3 p 0).toNat) : takeScheduleLeap n p (handEmptied s) =
      setLeap (some ⟨Params.b3 p 0, k, n⟩) (supersedeLeap (handEmptied s)) := by
  have hl : Params.label4 p 0 = some (Params.b3 p 0) := if_pos hlabel
  simp only [takeScheduleLeap, hform, hl]
  exact if_neg (Nat.not_lt.mpr hle)

theorem leapFormOf_cancel : leapFormOf 3 = some .cancel := rfl

/-- A cancel while no leap is scheduled (R9). -/
theorem scheduleLeap_cancels_none {s : State} (h : s.tsu.leap = none) :
    setLeap none (supersedeLeap (handEmptied s)) = handEmptied s := by
  have h' : (handEmptied s).tsu.leap = none := h
  rw [supersedeLeap_none h', setLeap, h', handIfChanged_same, ← h']
  rfl

/-- The cancel's own completion, after that of the leap it withdraws (R9). -/
theorem cancel_completes {s u : State} {slots : Vector RequestSlot 16} {n : Slot}
    (h : ChangesXu slots none [] s u) (hlabel : u.tsu.label = s.tsu.label)
    (hn : slots[n] = s.xu.slots[n]) (ht : s.xu.slots[n].state = .taken) :
    ChangesXu (slots.set n (doneSlot n 1 s.tsu.label s)) none [] s (completeNow n .ok (setLeap none u))
      ∧ (completeNow n .ok (setLeap none u)).xu.attn[clsDone].count = u.xu.attn[clsDone].count + 1
      ∧ (completeNow n .ok (setLeap none u)).xu.attn[clsDone].pending = true := by
  rw [setLeap_eq, ← hlabel]
  obtain ⟨hc, ha⟩ := changesXu_complete (u := { u with
    tsu := { u.tsu with leap := none }
    wires := { u.wires with conds := u.wires.conds ++ handed 16 u.tsu.leap.isSome false } })
    .ok u.tsu.label h hn ht
  exact ⟨hc, (congrArg Attention.count ha :), (congrArg Attention.pending ha :)⟩

theorem scheduleLeap_becomesPending (s : State) (n : Slot) (p : Vector Word 24) (hh : Held n 11 s)
    (hp : p = s.xu.slots[n].params) : ∃ t, exec .scheduleLeap s = .next t
    ∧ (Params.w p 4 = 0 ∨ 3 < (Params.w p 4).toNat
        ∨ (Params.w p 4 = 1 ∨ Params.w p 4 = 2) ∧ Params.w p 3 ≠ 0 →
        t.tsu = s.tsu ∧ t.wires = s.wires ∧ CompletesHeld n 5 s.tsu.label s t)
    ∧ (Params.w p 4 = 1 ∨ Params.w p 4 = 2 → Params.w p 3 = 0 →
        (Params.b3 p 0).toNat < s.tsu.label.toNat →
        t.tsu = s.tsu ∧ t.wires = s.wires ∧ CompletesHeld n 10 s.tsu.label s t)
    ∧ (∀ k, Params.w p 4 = (match k with | LeapKind.insert => 1 | .delete => 2) →
        Params.w p 3 = 0 → s.tsu.label.toNat ≤ (Params.b3 p 0).toNat →
        t.tsu = { s.tsu with leap := some ⟨Params.b3 p 0, k, n⟩ }
        ∧ (s.tsu.leap = none → ParksHeld s t
            ∧ t.wires = { s.wires with conds := s.wires.conds ++ [⟨16, true⟩] })
        ∧ (∀ l, s.tsu.leap = some l → s.xu.slots[l.slot].state = .taken → t.wires = s.wires
            ∧ ChangesXu (s.xu.slots.set l.slot (doneSlot l.slot 3 s.tsu.label s)) none [] s t
            ∧ t.xu.attn[clsDone].count = s.xu.attn[clsDone].count + 1
            ∧ t.xu.attn[clsDone].pending = true)
        ∧ (∀ l, s.tsu.leap = some l → s.xu.slots[l.slot].state ≠ .taken → t.wires = s.wires
            ∧ ParksHeld s t))
    ∧ (Params.w p 4 = 3 → t.tsu = { s.tsu with leap := none } ∧ t.xu.slots[n].state = .done
        ∧ (s.tsu.leap = none → t.wires = s.wires ∧ CompletesHeld n 1 s.tsu.label s t)
        ∧ (s.tsu.leap ≠ none →
            t.wires = { s.wires with conds := s.wires.conds ++ [⟨16, false⟩] })
        ∧ (∀ l, s.tsu.leap = some l → l.slot ≠ n → s.xu.slots[l.slot].state = .taken →
            ChangesXu ((s.xu.slots.set l.slot (doneSlot l.slot 3 s.tsu.label s)).set n
              (doneSlot n 1 s.tsu.label s)) none [] s t
            ∧ t.xu.attn[clsDone].count = s.xu.attn[clsDone].count + 2
            ∧ t.xu.attn[clsDone].pending = true)
        ∧ (∀ l, s.tsu.leap = some l → s.xu.slots[l.slot].state ≠ .taken →
            CompletesHeld n 1 s.tsu.label s t))
    ∧ KeepsAllBut [.tsu, .xu, .wires] s t := by
  subst hp
  generalize hpar : s.xu.slots[n].params = p
  have hx := exec_timeRequest.2.2 hh
  rw [hpar] at hx
  have htaken : s.xu.slots[n].state = .taken := hh.2.1
  refine ⟨_, hx, fun hbad => ?_, fun hform hw hlt => ?_, fun k hform hw hle => ?_, fun hform => ?_,
    ((handEmptied_frame s).mono (by decide)).trans (takeScheduleLeap_frame ..)⟩
  · have hinvalid : takeScheduleLeap n p (handEmptied s) = completeNow n .invalid (handEmptied s) := by
      obtain h | h | ⟨h, hw⟩ := hbad
      · simp only [takeScheduleLeap, leapFormOf_of_bad (.inl h)]
      · simp only [takeScheduleLeap, leapFormOf_of_bad (.inr h)]
      · obtain ⟨k, hk, -⟩ := leapFormOf_schedule h
        have hl : Params.label4 p 0 = none := if_neg hw
        simp only [takeScheduleLeap, hk, hl]
    rw [hinvalid]
    exact ⟨completeNow_tsu .., completeNow_wires .., completeNow_held .invalid hh⟩
  · have hmissed : takeScheduleLeap n p (handEmptied s) = completeNow n .missed (handEmptied s) := by
      obtain ⟨k, hk, -⟩ := leapFormOf_schedule hform
      have hl : Params.label4 p 0 = some (Params.b3 p 0) := if_pos hw
      simp only [takeScheduleLeap, hk, hl]
      exact if_pos hlt
    rw [hmissed]
    exact ⟨completeNow_tsu .., completeNow_wires .., completeNow_held .missed hh⟩
  · have hk : leapFormOf (Params.w p 4) = some (.schedule k) := by
      rw [hform]; cases k <;> rfl
    rw [scheduleLeap_schedules hk hw hle, setLeap_eq]
    refine ⟨?_, fun hn => ?_, fun l hl ht => ?_, fun l hl ht => ?_⟩
    · rw [supersedeLeap_tsu]; rfl
    · have hn' : (handEmptied s).tsu.leap = none := hn
      rw [supersedeLeap_none hn', hn']
      exact ⟨rfl, rfl⟩
    · have hl' : (handEmptied s).tsu.leap = some l := hl
      rw [supersedeLeap_some hl']
      refine ⟨?_, superseded_changes ht⟩
      simp only [completeNow_wires, completeNow_tsu, hl']
      exact congrArg (fun c => ({ s.wires with conds := c } : Wires)) (List.append_nil _)
    · have hl' : (handEmptied s).tsu.leap = some l := hl
      rw [supersedeLeap_some hl', superseded_parks ht]
      refine ⟨?_, rfl⟩
      simp only [hl']
      exact congrArg (fun c => ({ s.wires with conds := c } : Wires)) (List.append_nil _)
  · have hcancel : takeScheduleLeap n p (handEmptied s) =
        completeNow n .ok (setLeap none (supersedeLeap (handEmptied s))) := by
      simp only [takeScheduleLeap, hform, leapFormOf_cancel]
    rw [hcancel]
    have hdone : ∀ u : State, (u.xu.slots[n].state = .taken ∨ u.xu.slots[n].state = .done) →
        (completeNow n .ok u).xu.slots[n].state = .done := fun u hu => by
      by_cases ht : u.xu.slots[n].state = .taken
      · rw [completeNow, complete_slots_self _ _ _ ht]
      · rw [completeNow, complete_of_ne _ _ _ ht]
        exact hu.resolve_left ht
    rcases hs : s.tsu.leap with _ | l
    · rw [scheduleLeap_cancels_none hs]
      refine ⟨?_, hdone _ (.inl htaken), fun _ => ⟨completeNow_wires .., completeNow_held .ok hh⟩,
        fun h => absurd rfl h, nofun, nofun⟩
      rw [completeNow_tsu, ← hs]
      rfl
    · have hs' : (handEmptied s).tsu.leap = some l := hs
      rw [supersedeLeap_some hs']
      generalize hu : completeNow l.slot .superseded (handEmptied s) = u
      have htsu : u.tsu = s.tsu := by rw [← hu, completeNow_tsu]; rfl
      have hwires : u.wires = s.wires := by rw [← hu, completeNow_wires]; rfl
      refine ⟨?_, hdone _ ?_, nofun, fun _ => ?_, ?_, ?_⟩
      · rw [completeNow_tsu, setLeap_eq, htsu]
      · rw [setLeap_eq]
        change u.xu.slots[n].state = .taken ∨ u.xu.slots[n].state = .done
        rw [← hu, completeNow]
        by_cases hln : l.slot = n
        · rw [hln, complete_slots_self (s := handEmptied s) _ _ _ htaken]
          exact .inr rfl
        · rw [complete_slots_ne hln]
          exact .inl htaken
      · rw [completeNow_wires, setLeap_eq, hwires, htsu, hs]
        rfl
      · rintro l' hl' hne ht
        cases hl'
        obtain ⟨hc, hcount, -⟩ := superseded_changes ht
        rw [hu] at hc hcount
        obtain ⟨hc2, hcount2, hpend⟩ := cancel_completes hc (by rw [htsu])
          (updAt_ne s.xu.slots (fun _ => doneSlot l.slot 3 s.tsu.label s) hne) htaken
        refine ⟨hc2, ?_, hpend⟩
        rw [hcount2, hcount, BitVec.add_assoc]
        rfl
      · rintro l' hl' ht
        cases hl'
        rw [superseded_parks ht] at hu
        subst hu
        exact cancel_completes ⟨rfl, attnBumped_none rfl rfl rfl rfl fun _ => rfl⟩ rfl rfl htaken

/-- Settles O60. -/
theorem timeRequestsBecomePending : Obligations.TimeRequestsBecomePending :=
  ⟨setTime_becomesPending, stepPhase_becomesPending, scheduleLeap_becomesPending⟩

end Sys2Proof.Machine
end

section
/-! PROOFS. The capture unit: PPS windows, dividers, markers and missing timers. -/

namespace Sys2Proof.Machine

open Sys2Proof.Safety Config

/-! ### Readings (R3, R21) -/

theorem stampFor_nil (t : Tsu) : stampFor t [] =
    ⟨⟨t.label, if t.hold = none then t.frac / 125 * 125 else 0⟩, decide (t.hold ≠ none)⟩ := by
  rcases h : t.hold with _ | x
  · simp [stampFor, readingFor, tsuReading, onGrid, h]
  · simp [stampFor, readingFor, tsuReading, onGrid, h]

/-! ### PPS channels (R22 to R26) -/

theorem ppsStamp_eq {s : State} {c : PpsChannelId} (h : s.wires.ppsBnd[c] = []) (r : CaptureRecord) :
    ppsStamp c r s = ⟨⟨s.tsu.label, if s.tsu.hold = none then s.tsu.frac / 125 * 125 else 0⟩,
      decide (s.tsu.hold ≠ none), decide (r.bnd ≠ none)⟩ := by
  have hb : r.bnd.isSome = decide (r.bnd ≠ none) := by rcases r.bnd <;> rfl
  rw [ppsStamp, h, stampFor_nil, hb]

theorem recordLeading_eq (st : Stamp) (r : CaptureRecord) : recordLeading st r =
    if r.first = none then { r with first := some st, count := 1 }
    else { r with count := min (r.count + 1) 15 } := by
  unfold recordLeading satSucc
  rcases r.first <;> rfl

theorem recordTrailing_eq (st : Stamp) (r : CaptureRecord) : recordTrailing st r =
    if r.first ≠ none ∧ r.trail = none then { r with trail := some st } else r := by
  unfold recordTrailing
  rcases r.first <;> rcases r.trail <;> rfl

theorem onWindow_opened {c : PpsChannelId} {f : CaptureRecord → CaptureRecord} {s : State}
    {r : CaptureRecord} (h : s.cap.pps[c].window = .opened r) : onWindow c f s =
      { s with cap := { s.cap with
        pps := s.cap.pps.set c { s.cap.pps[c] with window := .opened (f r) } } } := by
  simp only [onWindow, h]
  rfl

theorem onWindow_closed {c : PpsChannelId} {f : CaptureRecord → CaptureRecord} {s : State}
    (h : ∀ r, s.cap.pps[c].window ≠ .opened r) : onWindow c f s = s := by
  unfold onWindow
  split
  · rename_i r hr; exact absurd hr (h r)
  · rfl

theorem closeDue_opened {c : PpsChannelId} {s : State} {r : CaptureRecord}
    (h : s.cap.pps[c].window = .opened r) (hb : r.bnd = none) : closeDue c s = false := by
  simp only [closeDue, h, hb]

theorem closeDue_idle {c : PpsChannelId} {s : State} (h : s.cap.pps[c].window = .idle) :
    closeDue c s = false := by
  simp only [closeDue, h]

theorem takePpsBoundary_eq {c : PpsChannelId} {s : State} {b : Boundary} {rest : List Boundary}
    (hd : closeDue c s = false) (hw : s.wires.ppsBnd[c] = b :: rest) : takePpsBoundary c s =
      { s with
        wires := { s.wires with ppsBnd := s.wires.ppsBnd.set c rest }
        cap := { s.cap with pps := s.cap.pps.set c (noteBoundary b s.cap.pps[c]) } } := by
  simp only [takePpsBoundary, hd, hw]
  rfl

/-- Settles O24. -/
theorem ppsWindowsRecord : Obligations.PpsWindowsRecord := by
  refine ⟨fun s c hw => ⟨fun r st hr hst => ?_, fun hr => ?_⟩, fun s c b rest hw => ⟨fun r hr hb => ?_,
    fun hi => ?_⟩⟩
  · subst hst
    rw [← ppsStamp_eq hw]
    refine ⟨congrArg Host.Outcome.next ?_, congrArg Host.Outcome.next ?_⟩
    · rw [takeLeadingEdge, onWindow_opened hr, recordLeading_eq]
    · rw [takeTrailingEdge, onWindow_opened hr, recordTrailing_eq]
  · exact ⟨congrArg Host.Outcome.next (onWindow_closed hr),
      congrArg Host.Outcome.next (onWindow_closed hr)⟩
  · refine congrArg Host.Outcome.next ((takePpsBoundary_eq (closeDue_opened hr hb) hw).trans ?_)
    have hn : noteBoundary b s.cap.pps[c]
        = { s.cap.pps[c] with window := .opened { r with bnd := some b } } := by
      simp only [noteBoundary, hr, hb]
      rfl
    rw [hn]
  · refine congrArg Host.Outcome.next ((takePpsBoundary_eq (closeDue_idle hi) hw).trans ?_)
    have hn : noteBoundary b s.cap.pps[c] = s.cap.pps[c] := by simp only [noteBoundary, hi]
    have hself : s.cap.pps.set c s.cap.pps[c] = s.cap.pps := Vector.set_getElem_self ..
    rw [hn, hself]

theorem reached_now {t : Tsu} {ps : Nat} (hh : t.hold = none) (h : ps ≤ t.frac) :
    reached t t.second ps = true := by
  simp [reached, hh, h]

theorem stepOf_eq (b : Boundary) : stepOf b = (b.step.map (·.1)).getD 0 := by
  unfold stepOf
  rcases b.step <;> rfl

theorem takeWindowClose_waiting {c : PpsChannelId} {s : State} (hh : s.tsu.hold = none)
    (hf : 500000000000 ≤ s.tsu.frac) (hw : s.cap.pps[c].window = .waiting s.tsu.second)
    (hb : s.wires.ppsBnd[c] = []) : takeWindowClose c s = { s with cap := { s.cap with
      pps := s.cap.pps.set c { s.cap.pps[c] with window := .opened ⟨none, none, 0, none⟩ } } } := by
  have hd : closeDue c s = true := by
    simp only [closeDue, hw, hb]
    rw [reached_now hh hf]
    rfl
  rw [takeWindowClose, if_pos hd]
  simp only [hw]
  rfl

theorem takeWindowClose_opened {c : PpsChannelId} {s : State} {first trail : Option Stamp} {count : Nat}
    {b : Boundary} (hh : s.tsu.hold = none) (hf : 500000000000 ≤ s.tsu.frac)
    (hw : s.cap.pps[c].window = .opened ⟨first, trail, count, some b⟩) (hb : b.second = s.tsu.second)
    {m : RawMeas} (hm : ppsMeasurement c s.qsu.refs[ppsRef c].cfg b ⟨first, trail, count, some b⟩
      s.cap.pps[c].prev = m) : takeWindowClose c s = { s with
        cap := { s.cap with
          pps := s.cap.pps.set c
            ⟨.opened ⟨none, none, 0, none⟩, some ⟨m.e, m.outcome == .clean⟩,
              first.map (stampOffset (stepOf b)), count, m.width⟩ }
        wires := { s.wires with arrivals := s.wires.arrivals ++ [m] } } := by
  have hd : closeDue c s = true := by
    simp only [closeDue, hw, hb]
    exact reached_now hh hf
  subst hm
  rw [takeWindowClose, if_pos hd]
  simp only [hw]
  rfl

theorem ppsOutcome_clean {cfg : RefConfig} {v : Int} {f z : Stamp} {count : Nat} {b : Option Boundary}
    (hc : count < 2) : ppsOutcome cfg v ⟨some f, some z, count, b⟩ =
      if stampOffset v z - stampOffset v f < cfg.wMin ∨ cfg.wMax < stampOffset v z - stampOffset v f
      then .width else .clean := by
  simp only [ppsOutcome, Option.isNone_some, Bool.false_eq_true, if_false,
    if_neg (Nat.not_le.mpr hc), pulseWidth, Option.bind_eq_bind, Option.bind_some]

/-- Two CLEAN measurements give the change of phase error, the step taken back out (R26, R50). -/
theorem phaseDelta_clean {e before v : Int} {p : PrevPhase} (hc : p.clean = true)
    (hb : p.e = some before) : phaseDelta true (some e) (some p) v = some (e - before + v) := by
  obtain ⟨pe, pc⟩ := p
  subst hc hb
  rfl

theorem phaseDelta_none {clean : Bool} {e : Option Int} {prev : Option PrevPhase} {v : Int}
    (h : clean = false ∨ prev = none ∨ ∃ e', prev = some ⟨e', false⟩) :
    phaseDelta clean e prev v = none := by
  obtain rfl | rfl | ⟨e', rfl⟩ := h
  · rcases prev with _ | ⟨_ | _, _⟩ <;> rcases e with _ | _ <;> rfl
  · rfl
  · rcases e with _ | _ <;> rcases e' with _ | _ <;> rcases clean with _ | _ <;> rfl

/-- Settles O25. -/
theorem windowCloseMeasures : Obligations.WindowCloseMeasures := by
  refine fun s c hh hf => ⟨fun first trail count b v off hw hb hv hoff => ?_, fun hw hb =>
    congrArg Host.Outcome.next (takeWindowClose_waiting hh hf hw hb)⟩
  rw [← stepOf_eq] at hv
  subst hv
  obtain rfl : off = stampOffset (stepOf b) := funext hoff
  generalize hm : ppsMeasurement c s.qsu.refs[ppsRef c].cfg b ⟨first, trail, count, some b⟩
    s.cap.pps[c].prev = m
  have hout : m.outcome = ppsOutcome s.qsu.refs[ppsRef c].cfg (stepOf b) ⟨first, trail, count, some b⟩ := by
    rw [← hm]; rfl
  have he : m.e = first.map fun st => -(stampOffset (stepOf b) st)
      + s.qsu.refs[ppsRef c].cfg.compensation := by rw [← hm]; rfl
  have hdelta : m.delta = phaseDelta (m.outcome == .clean) m.e s.cap.pps[c].prev (stepOf b) := by
    rw [← hm]; rfl
  have hwidth : m.width = pulseWidth (stepOf b) ⟨first, trail, count, some b⟩ := by rw [← hm]; rfl
  refine ⟨_, m, congrArg Host.Outcome.next (takeWindowClose_opened hh hf hw hb hm), rfl, by rw [← hm]; rfl,
    by rw [← hm]; rfl, by rw [← hm]; rfl, fun hn => ?_, fun hs h2 => ?_, fun hs h2 ht => ?_,
    fun f z hs ht h2 => ?_, fun f hs => ?_, fun p e before hp hclean hbefore hc hme => ?_, fun hno => ?_,
    ?_, by simp [KeepsAllBut]⟩
  · subst hn
    exact ⟨hout, he⟩
  · obtain ⟨f, rfl⟩ := Option.ne_none_iff_exists'.mp hs
    exact hout.trans (if_pos h2)
  · obtain ⟨f, rfl⟩ := Option.ne_none_iff_exists'.mp hs
    subst ht
    exact hout.trans (if_neg (Nat.not_le.mpr h2))
  · subst hs ht
    exact ⟨hwidth, hout.trans (ppsOutcome_clean h2)⟩
  · subst hs; exact he
  · rw [hdelta, hc, hme, hp]
    exact phaseDelta_clean hclean hbefore
  · rw [hdelta]
    exact phaseDelta_none (hno.imp_left beq_eq_false_iff_ne.mpr)
  · rfl

/-! ### Dividers (R28 to R33) -/

theorem updDiv_eq (s : State) (d : DividerId) (f : Divider → Divider) : s.updDiv d f =
    { s with cap := { s.cap with div := s.cap.div.set d (f s.cap.div[d]) } } := rfl

theorem updDiv_eq_self {s : State} {d : DividerId} {f : Divider → Divider}
    (h : f s.cap.div[d] = s.cap.div[d]) : s.updDiv d f = s := by
  rw [updDiv_eq, h]
  have hself : s.cap.div.set d s.cap.div[d] = s.cap.div := Vector.set_getElem_self ..
  rw [hself]

theorem takeDividerBoundary_eq {d : DividerId} {s : State} {b : Boundary} {rest : List Boundary}
    (h : s.wires.divBnd[d] = b :: rest) : takeDividerBoundary d s =
      pruneLog { s with
        wires := { s.wires with divBnd := s.wires.divBnd.set d rest }
        cap := { s.cap with div := s.cap.div.set d (countBoundary s.cap.div[d]) } } := by
  simp only [takeDividerBoundary, h]
  rfl

theorem takeLineChange_loss {l : LineId} {s : State} (h : s.cap.lineOk[l] = true) :
    takeLineChange l false s = pruneLog { s with cap := { s.cap with
      lineOk := s.cap.lineOk.set l false
      div := s.cap.div.set (lineDiv l) { s.cap.div[lineDiv l] with chain := none } } } := by
  rw [takeLineChange, if_neg (by rw [h]; decide)]
  rfl

theorem takeLineChange_return {l : LineId} {s : State} (h : s.cap.lineOk[l] = false) :
    takeLineChange l true s = { s with cap := { s.cap with lineOk := s.cap.lineOk.set l true } } := by
  rw [takeLineChange, if_neg (by rw [h]; decide)]
  rfl

/-- Settles O26. -/
theorem dividersCountAndLoseTheLine : Obligations.DividersCountAndLoseTheLine := by
  refine ⟨fun s d => ⟨fun hs => ?_, fun hs => ?_, fun hs => ?_, fun b rest hw => ?_⟩,
    fun s l => ⟨fun hl => ?_, fun hl => congrArg Host.Outcome.next (takeLineChange_return hl),
      congrArg Host.Outcome.next (if_pos rfl)⟩⟩
  · have he : countEdge (modulus d s) s.cap.div[d] = s.cap.div[d] := by simp only [countEdge, hs]
    exact congrArg Host.Outcome.next (updDiv_eq_self he)
  · have he : countEdge (modulus d s) s.cap.div[d] = { s.cap.div[d] with
        state := .counting, count := if modulus d s = 1 then 0 else 1 } := by simp only [countEdge, hs]
    exact congrArg Host.Outcome.next ((updDiv_eq ..).trans (by rw [he]; rfl))
  · have he : countEdge (modulus d s) s.cap.div[d]
        = { s.cap.div[d] with count := s.cap.div[d].count + 1 } := by simp only [countEdge, hs]
    exact congrArg Host.Outcome.next ((updDiv_eq ..).trans (by rw [he]))
  · refine ⟨_, congrArg Host.Outcome.next (takeDividerBoundary_eq hw), fun ch hc => ?_, fun hc => ?_, rfl,
      pruneLog_pruned_of rfl, by simp [KeepsAllBut]⟩
    · simp only [pruneLog_cap, countBoundary, hc, Option.map_some]
    · have he : countBoundary s.cap.div[d] = s.cap.div[d] := by
        simp only [countBoundary, hc, Option.map_none]
        rw [← hc]
      have hself : s.cap.div.set d s.cap.div[d] = s.cap.div := Vector.set_getElem_self ..
      rw [pruneLog_cap, he, hself]
  · exact ⟨_, congrArg Host.Outcome.next (takeLineChange_loss hl), rfl, pruneLog_pruned_of rfl,
      by simp [KeepsAllBut]⟩

/-! ### Markers (R28 to R33) -/

theorem markersIgnored_iff (d : DividerId) (s : State) : markersIgnored d s = true ↔
    ∃ l : LineId, d = lineDiv l ∧ s.cap.lineOk[l] = false := by
  have hd := d.isLt
  unfold markersIgnored divLine
  by_cases h : 2 ≤ d.val
  · rw [dif_pos h]
    have hline : d = lineDiv ⟨d.val - 2, by omega⟩ := Fin.ext (by change d.val = d.val - 2 + 2; omega)
    refine ⟨fun hl => ⟨_, hline, by simpa using hl⟩, fun ⟨l, hl, hok⟩ => ?_⟩
    have hl' : l = ⟨d.val - 2, by omega⟩ := Fin.ext (by
      have := congrArg Fin.val hl
      change d.val = l.val + 2 at this
      change l.val = d.val - 2
      omega)
    subst hl'
    simpa using hok
  · rw [dif_neg h]
    refine ⟨nofun, fun ⟨l, hl, _⟩ => absurd (congrArg Fin.val hl) ?_⟩
    change ¬d.val = l.val + 2
    omega

/-- The divider with its count started again. -/
def restarted (d : DividerId) (s : State) : State :=
  s.updDiv d fun v => { v with count := v.count - modulus d s }

theorem takeMarker_eq {d : DividerId} {s : State} (hc : s.cap.div[d].state = .counting)
    (hm : s.qsu.refs[divRef d].cfg.nominal ≤ s.cap.div[d].count) : takeMarker d s =
      if markersIgnored d s then restarted d s else pruneLog (useMarker d (restarted d s)) := by
  have hdue : markerDue d s = true := by
    rw [markerDue, hc, decide_eq_true (by exact hm)]
    rfl
  rw [takeMarker, if_pos hdue]
  rfl

theorem restarted_eq (d : DividerId) (s : State) : restarted d s = { s with cap := { s.cap with
    div := s.cap.div.set d { s.cap.div[d] with
      count := s.cap.div[d].count - s.qsu.refs[divRef d].cfg.nominal } } } := rfl

theorem stepsSeen_of_nil {s : State} {d : DividerId} (h : s.wires.divBnd[d] = []) :
    stepsSeen s d = s.tsu.logged := by
  rw [stepsSeen, h]
  rfl

section
variable {d : DividerId} {s : State}

theorem useMarker_held (hw : s.wires.divBnd[d] = []) (hh : s.tsu.hold ≠ none) : useMarker d s =
    s.updDiv d fun v => { v with timer := some 1500000000000, chain := none } := by
  have hheld : (stampFor s.tsu s.wires.divBnd[d]).held = true := by
    rw [hw, stampFor_nil]; exact decide_eq_true hh
  simp only [useMarker, hheld, if_true]
  rfl

/-- The stamp of a marker outside a hold. -/
theorem markerStamp (hw : s.wires.divBnd[d] = []) (hh : s.tsu.hold = none) :
    stampFor s.tsu s.wires.divBnd[d] = ⟨⟨s.tsu.label, s.tsu.frac / 125 * 125⟩, false⟩ := by
  rw [hw, stampFor_nil, if_pos hh, hh]
  rfl

theorem useMarker_opens (hw : s.wires.divBnd[d] = []) (hh : s.tsu.hold = none)
    (hc : s.cap.div[d].chain = none) : useMarker d s = s.updDiv d fun v => { v with
      timer := some 1500000000000
      chain := some ⟨⟨s.tsu.label, s.tsu.frac / 125 * 125⟩, 0, 1, s.tsu.logged, true⟩ } := by
  simp only [useMarker, markerStamp hw hh, stepsSeen_of_nil hw, hc]
  rfl

theorem useMarker_measures {ch : Chain} {m : RawMeas} (hw : s.wires.divBnd[d] = [])
    (hh : s.tsu.hold = none) (hc : s.cap.div[d].chain = some ch)
    (hm : markerMeasurement d s.qsu.refs[divRef d].cfg ch ⟨s.tsu.label, s.tsu.frac / 125 * 125⟩
      (stepsSince ch.note s.tsu.logged s.tsu.stepLog) = m) : useMarker d s =
      handArrival m (s.updDiv d fun v => { v with
        timer := some 1500000000000
        chain := some ⟨⟨s.tsu.label, s.tsu.frac / 125 * 125⟩, 0, 1, s.tsu.logged, false⟩
        detailInterval := m.interval
        detailSpan := m.span }) := by
  subst hm
  simp only [useMarker, markerStamp hw hh, stepsSeen_of_nil hw, hc]
  rfl

theorem restarted_div (d : DividerId) (s : State) : (restarted d s).cap.div[d] = { s.cap.div[d] with
    count := s.cap.div[d].count - s.qsu.refs[divRef d].cfg.nominal } := updAt_self ..

/-- A change of the restarted divider is one change of the divider. -/
theorem updDiv_restarted (d : DividerId) (f : Divider → Divider) (s : State) :
    ((restarted d s).updDiv d f).cap = { s.cap with div := s.cap.div.set d (f { s.cap.div[d] with
      count := s.cap.div[d].count - s.qsu.refs[divRef d].cfg.nominal }) } := by
  rw [updDiv_eq, restarted_div, restarted_eq]
  simp only [Vector.set_set]

end

/-- Settles O27. -/
theorem markerMeasures : Obligations.MarkerMeasures := by
  intro s d v hv hcount hm
  subst hv
  refine ⟨fun l hl hok => ?_, fun hok hw => ?_⟩
  · have hign : markersIgnored d s = true := (markersIgnored_iff d s).mpr ⟨l, hl, hok⟩
    exact congrArg Host.Outcome.next ((takeMarker_eq hcount hm).trans (if_pos hign))
  · have hign : ¬markersIgnored d s = true := fun h => by
      obtain ⟨l, hl, hno⟩ := (markersIgnored_iff d s).mp h
      rw [hok l hl] at hno
      cases hno
    have hw' : (restarted d s).wires.divBnd[d] = [] := hw
    have hchain : (restarted d s).cap.div[d].chain = s.cap.div[d].chain := by rw [restarted_div]
    refine ⟨_, congrArg Host.Outcome.next ((takeMarker_eq hcount hm).trans (if_neg hign)),
      fun ch i hc hh hi => ?_, fun hc hh => ?_, fun hh => ?_, ?_, ?_⟩
    · generalize hmeas : markerMeasurement d s.qsu.refs[divRef d].cfg ch
        ⟨s.tsu.label, s.tsu.frac / 125 * 125⟩ (stepsSince ch.note s.tsu.logged s.tsu.stepLog) = m
      have hint : m.interval = some i := by rw [← hmeas, hi]; rfl
      have hdelta : m.delta = some ((ch.span : Int) * 1000000000000 - i) := by
        rw [← hmeas, hi]; rfl
      have hout : m.outcome = if ch.span * s.qsu.refs[divRef d].cfg.gross
          < ((ch.span : Int) * 1000000000000 - i).natAbs then .range else .clean := by
        rw [← hmeas, hi]; rfl
      have hspan : m.span = some ch.span := by rw [← hmeas]; rfl
      rw [useMarker_measures hw' hh (hchain.trans hc) hmeas, hint, hspan]
      refine ⟨⟨m, rfl, ?_, ?_, ?_, hint, hdelta, hspan, ?_, hout⟩, ?_⟩
      · rw [← hmeas]; rfl
      · rw [← hmeas]; rfl
      · rw [← hmeas]; rfl
      · rw [← hmeas]; rfl
      · refine (updDiv_restarted d _ s).trans ?_
        simp only [hcount]
        rfl
    · rw [useMarker_opens hw' hh (hchain.trans hc)]
      exact ⟨rfl, updDiv_restarted d _ s⟩
    · rw [useMarker_held hw' hh]
      exact ⟨rfl, updDiv_restarted d _ s⟩
    · exact pruneLog_pruned_of (useMarker_tsu d (restarted d s))
    · have h1 : KeepsAllBut [.cap] s (restarted d s) := by simp [restarted, KeepsAllBut]
      exact (h1.mono (by decide)).trans
        (((useMarker_frame d _).mono (by decide)).trans ((pruneLog_frame _).mono (by decide)))

/-! ### Missing timers (R31, R32) -/

theorem takeMissingExpiry_eq {d : DividerId} {s : State} (ht : s.cap.div[d].timer = some 0)
    (hw : s.wires.divBnd[d] = []) : takeMissingExpiry d s =
      pruneLog (handArrival (missingMeasurement d s.tsu.label) (s.updDiv d fun v => { v with
        timer := some 1500000000000
        chain := v.chain.bind missChain
        detailInterval := none
        detailSpan := none })) := by
  have hl : (readingFor s.tsu s.wires.divBnd[d]).at_.label = s.tsu.label := by rw [hw]; rfl
  rw [takeMissingExpiry, if_pos ht, hl]

/-- Settles O28. -/
theorem missingTimerExpires : Obligations.MissingTimerExpires := by
  intro s d v hv ht hw
  subst hv
  refine ⟨_, missingMeasurement d s.tsu.label, congrArg Host.Outcome.next (takeMissingExpiry_eq ht hw),
    rfl, rfl, rfl, rfl, rfl, rfl, rfl, rfl, fun ch hc hs => ?_, fun hc => ?_, pruneLog_pruned_of rfl,
    by simp [KeepsAllBut]⟩
  · have hmiss : s.cap.div[d].chain.bind missChain = some { ch with span := ch.span + 1 } := by
      rw [hc]; exact if_neg (Nat.not_le.mpr hs)
    rw [updDiv_eq, hmiss]
    rfl
  · have hmiss : s.cap.div[d].chain.bind missChain = none := by
      rcases hch : s.cap.div[d].chain with _ | ch
      · rfl
      · exact if_pos (hc ch hch)
    rw [updDiv_eq, hmiss]
    rfl

end Sys2Proof.Machine
end

section
/-! PROOFS. The packet unit: the judgement of a sample and the evaluation of the windows. -/

namespace Sys2Proof.Machine

open Sys2Proof.Safety Config

/-! ### Samples (R40 to R46) -/

theorem readingFor_nil (t : Tsu) :
    (readingFor t []).at_ = ⟨t.label, if t.hold = none then t.frac else 0⟩ := by
  unfold readingFor tsuReading
  rcases h : t.hold with _ | x
  · rfl
  · rfl

theorem packetOf_eq_some {w : Word} {k : PacketId} (h : w = BitVec.ofNat 16 (6 + k.val)) :
    packetOf w = some k := by
  subst h
  match k with
  | 0 => rfl
  | 1 => rfl

theorem packetOf_eq_none {w : Word} (h6 : w ≠ 6) (h7 : w ≠ 7) : packetOf w = none := by
  rw [packetOf, if_neg h6, if_neg h7]

section
variable {s : State} {q : Sample} {k : PacketId} {now : Instant}

theorem judgeSample_disabled (hk : packetOf q.ref = some k) (he : s.qsu.refs[pktRef k].cfg.enabled = false) :
    judgeSample s q now = .badRef := by
  simp only [judgeSample, hk, he]
  rfl

theorem isStale_iff {t2 : Instant} {mark : Option Label} : isStale now t2 mark = true ↔
    4000000000000 < instDiff now t2 ∨ ∃ l, mark = some l ∧ 0 < instDiff ⟨l, 0⟩ t2 := by
  unfold isStale
  rcases mark with _ | l
  · simp
  · simp

theorem isDuplicate_iff {w : List WindowEntry} {t1 t2 t3 t4 : Instant} :
    isDuplicate w t1 t2 t3 t4 = true
      ↔ ∃ e ∈ w, e.t1 = t1 ∧ e.t2 = t2 ∧ e.t3 = t3 ∧ e.t4 = t4 := by
  simp [isDuplicate, and_assoc]

/-- The order of the reasons for an enabled reference (R42, R43). -/
theorem judgeSample_enabled (hk : packetOf q.ref = some k)
    (he : s.qsu.refs[pktRef k].cfg.enabled = true) : judgeSample s q now =
      if (psPerSecond ≤ (q.instant 0).ps || psPerSecond ≤ (q.instant 6).ps
        || psPerSecond ≤ (q.instant 12).ps || psPerSecond ≤ (q.instant 18).ps) = true then .badField
      else if 0 < instDiff (q.instant 6) (q.instant 12) then .order
      else if (psPerSecond < (instDiff (q.instant 6) (q.instant 0)).natAbs
        || psPerSecond < (instDiff (q.instant 18) (q.instant 12)).natAbs) = true then .range
      else if roundTrip (q.instant 0) (q.instant 6) (q.instant 12) (q.instant 18) < 0 then .negative
      else if isStale now (q.instant 6) s.pku.stepMark = true then .stale
      else if 0 < instDiff (q.instant 6) now then .future
      else if isDuplicate s.pku.refs[k].window (q.instant 0) (q.instant 6) (q.instant 12)
        (q.instant 18) = true then .duplicate
      else .accepted := by
  simp only [judgeSample, hk, he]
  rfl

theorem judgeSlot_eq {n : SampleSlot} (hs : s.pku.board[n].state = .empty) (hw : s.wires.pkuBnd = [])
    {v : Verdict} (hv : judgeSample s s.pku.board[n] (readingFor s.tsu []).at_ = v) : judgeSlot n s =
      bump clsBoard { s with pku := { s.pku with
        board := s.pku.board.set n { s.pku.board[n] with verdict := v, takeLabel := s.tsu.label }
        refs := match packetOf s.pku.board[n].ref with
          | none => s.pku.refs
          | some k => s.pku.refs.set k
            (countSample v (entryOf s.pku.board[n] s.tsu.label) s.pku.refs[k]) } } := by
  have hr : ¬s.pku.board[n].state = .ready := by rw [hs]; decide
  subst hv
  rw [judgeSlot, if_neg hr, hw]
  rw [← hs]
  rcases packetOf s.pku.board[n].ref <;> rfl

end

/-- What every judged sample leaves: BOARD bumped once, the latch released, no other block touched. -/
theorem sampleReady_rest {s : State} {pk : Pku} {t : State}
    (ht : t = bump clsBoard { releaseLatch s with pku := pk }) :
    t.xu = { s.xu with latch := none, attn := t.xu.attn, inta := t.xu.inta, intb := t.xu.intb }
      ∧ AttnBumped [clsBoard] s t
      ∧ t.xu.attn[clsBoard].count = s.xu.attn[clsBoard].count + 1
      ∧ t.xu.attn[clsBoard].pending = true ∧ KeepsAllBut [.pku, .xu] s t := by
  subst ht
  have hb := bump_attn_self clsBoard { releaseLatch s with pku := pk }
  refine ⟨rfl, attnBumped_bump _ (attnBumped_none rfl rfl rfl rfl fun _ => rfl),
    (congrArg Attention.count hb :), (congrArg Attention.pending hb :), by simp [KeepsAllBut, releaseLatch_eq]⟩

/-- Settles O29. -/
theorem sampleIsJudged : Obligations.SampleIsJudged := by
  refine ⟨fun s n q k t1 t2 t3 t4 now hq hw href h1 h2 h3 h4 hnow => ⟨fun hs => ?_, fun hs => ?_⟩,
    fun s n q hq hw h6 h7 hs => ?_⟩
  · subst hq
    exact congrArg Host.Outcome.next (if_pos hs)
  · subst hq h1 h2 h3 h4
    have hk := packetOf_eq_some href
    rw [← readingFor_nil] at hnow
    subst hnow
    generalize hv : judgeSample s s.pku.board[n] (readingFor s.tsu []).at_ = v
    have hx : exec (.sampleReady n) s = .next (bump clsBoard { releaseLatch s with pku := { s.pku with
        board := s.pku.board.set n { s.pku.board[n] with verdict := v, takeLabel := s.tsu.label }
        refs := s.pku.refs.set k
          (countSample v (entryOf s.pku.board[n] s.tsu.label) s.pku.refs[k]) } }) := by
      refine congrArg Host.Outcome.next ((judgeSlot_eq (s := releaseLatch s) hs hw hv).trans ?_)
      have hk' : packetOf (releaseLatch s).pku.board[n].ref = some k := hk
      simp only [hk']
      rfl
    refine ⟨_, v, hx, rfl, fun he => hv.symm.trans (judgeSample_disabled hk he),
      fun badField order range negative stale future duplicate c1 c2 c3 c4 c5 c6 c7 he => ?_,
      fun ha => ?_, fun ha => ?_, rfl, sampleReady_rest rfl⟩
    · have hj := judgeSample_enabled (now := (readingFor s.tsu []).at_) hk he
      rw [hv] at hj
      have d1 : (psPerSecond ≤ (s.pku.board[n].instant 0).ps || psPerSecond ≤ (s.pku.board[n].instant 6).ps
          || psPerSecond ≤ (s.pku.board[n].instant 12).ps
          || psPerSecond ≤ (s.pku.board[n].instant 18).ps) = true ↔ badField := by
        rw [c1]; simp [or_assoc]
      have d3 : (psPerSecond < (instDiff (s.pku.board[n].instant 6) (s.pku.board[n].instant 0)).natAbs
          || psPerSecond < (instDiff (s.pku.board[n].instant 18) (s.pku.board[n].instant 12)).natAbs) = true
          ↔ range := by
        rw [c3]; simp
      have d4 : roundTrip (s.pku.board[n].instant 0) (s.pku.board[n].instant 6)
          (s.pku.board[n].instant 12) (s.pku.board[n].instant 18) < 0 ↔ negative := c4.symm
      have d5 := isStale_iff.trans c5.symm
      have d7 := isDuplicate_iff.trans c7.symm
      subst hj
      refine ⟨fun p1 => if_pos (d1.mpr p1), fun p1 => ?_, fun p1 => ?_, fun p1 => ?_, fun p1 => ?_,
        fun p1 => ?_, fun p1 => ?_, fun p1 => ?_⟩
      all_goals rw [if_neg (mt d1.mp p1)]
      · exact fun p2 => if_pos (c2.mp p2)
      all_goals intro p2; rw [if_neg (mt c2.mpr p2)]
      · exact fun p3 => if_pos (d3.mpr p3)
      all_goals intro p3; rw [if_neg (mt d3.mp p3)]
      · exact fun p4 => if_pos (d4.mpr p4)
      all_goals intro p4; rw [if_neg (mt d4.mp p4)]
      · exact fun p5 => if_pos (d5.mpr p5)
      all_goals intro p5; rw [if_neg (mt d5.mp p5)]
      · exact fun p6 => if_pos (c6.mp p6)
      all_goals intro p6; rw [if_neg (mt c6.mpr p6)]
      · exact fun p7 => if_pos (d7.mpr p7)
      · exact fun p7 => if_neg (mt d7.mp p7)
    · have hc : countSample v (entryOf s.pku.board[n] s.tsu.label) s.pku.refs[k] = _ := if_pos ha
      exact congrArg (s.pku.refs.set k ·) hc
    · have hc : countSample v (entryOf s.pku.board[n] s.tsu.label) s.pku.refs[k] = _ := if_neg ha
      exact congrArg (s.pku.refs.set k ·) hc
  · subst hq
    have hk := packetOf_eq_none h6 h7
    have hv : judgeSample s s.pku.board[n] (readingFor s.tsu []).at_ = .badRef := by
      simp only [judgeSample, hk]
    have hx : exec (.sampleReady n) s = .next (bump clsBoard { releaseLatch s with pku := { s.pku with
        board := s.pku.board.set n
          { s.pku.board[n] with verdict := .badRef, takeLabel := s.tsu.label } } }) := by
      refine congrArg Host.Outcome.next ((judgeSlot_eq (s := releaseLatch s) hs hw hv).trans ?_)
      have hk' : packetOf (releaseLatch s).pku.board[n].ref = none := hk
      simp only [hk']
      rfl
    exact ⟨_, hx, rfl, sampleReady_rest rfl⟩

/-! ### Evaluation (R47 to R50) -/

/-- The window of packet reference `k` with this evaluation's in-span marks. -/
def spanMarked (s : State) (k : PacketId) : List WindowEntry :=
  markSpan s.pku.label s.qsu.refs[pktRef k].cfg.span s.pku.refs[k].window

def chosenOf (s : State) (k : PacketId) : Option (Nat × WindowEntry) := chooseFrom 0 (spanMarked s k)

def inSpanCount (s : State) (k : PacketId) : Nat := ((spanMarked s k).filter (·.inSpan)).length

/-- The measurement of packet reference `k` at boundary `b`. -/
def evalMeas (b : Boundary) (s : State) (k : PacketId) : RawMeas :=
  packetMeasurement k s.qsu.refs[pktRef k].cfg s.pku.label s.pku.repeated (stepOf b) s.pku.refs[k]
    (chosenOf s k) (inSpanCount s k)

/-- Packet reference `k` after its evaluation at boundary `b`. -/
def evalRef (b : Boundary) (s : State) (k : PacketId) : PacketRef :=
  if s.qsu.refs[pktRef k].cfg.enabled = true then turnCounts { s.pku.refs[k] with
    window := markChosen (chosenOf s k) (spanMarked s k)
    prev := some ⟨(evalMeas b s k).e, (evalMeas b s k).outcome == .clean⟩
    lastInSpan := inSpanCount s k
    lastChosen := (chosenOf s k).map fun c => ⟨c.2.t2, c.2.o, c.2.d⟩ }
  else turnCounts s.pku.refs[k]

/-- What packet reference `k` hands at boundary `b`. -/
def evalHands (b : Boundary) (s : State) (k : PacketId) : List RawMeas :=
  if s.qsu.refs[pktRef k].cfg.enabled = true then [evalMeas b s k] else []

theorem evaluatePacket_eq (b : Boundary) (s : State) (k : PacketId) : evaluatePacket b s k = { s with
    pku := { s.pku with refs := s.pku.refs.set k (evalRef b s k) }
    wires := { s.wires with arrivals := s.wires.arrivals ++ evalHands b s k } } := by
  by_cases he : s.qsu.refs[pktRef k].cfg.enabled = true
  · rw [evaluatePacket, evalRef, evalHands]
    simp only [if_pos he]
    rfl
  · rw [evaluatePacket, evalRef, evalHands]
    simp only [if_neg he]
    exact congrArg (fun a => ({ s with
      pku := { s.pku with refs := s.pku.refs.set k (turnCounts s.pku.refs[k]) }
      wires := { s.wires with arrivals := a } } : State)) (List.append_nil _).symm

/-- The evaluation of a reference reads its own window alone. -/
theorem evalRef_congr {b : Boundary} {s t : State} {k : PacketId} (hq : t.qsu = s.qsu)
    (hl : t.pku.label = s.pku.label) (hr : t.pku.repeated = s.pku.repeated)
    (hk : t.pku.refs[k] = s.pku.refs[k]) :
    evalRef b t k = evalRef b s k ∧ evalHands b t k = evalHands b s k := by
  have hs : spanMarked t k = spanMarked s k := by rw [spanMarked, spanMarked, hq, hl, hk]
  have hm : evalMeas b t k = evalMeas b s k := by
    rw [evalMeas, evalMeas, chosenOf, chosenOf, inSpanCount, inSpanCount, hs, hq, hl, hr, hk]
  constructor
  · rw [evalRef, evalRef, hm, chosenOf, chosenOf, inSpanCount, inSpanCount, hs, hq, hk]
  · rw [evalHands, evalHands, hm, hq]

/-- The packet unit after both evaluations, before the mark and the windows are settled. -/
def evaluatedPku (b : Boundary) (s : State) : Pku :=
  { s.pku with refs := (s.pku.refs.set 0 (evalRef b s 0)).set 1 (evalRef b s 1) }

theorem evaluatedPku_refs (b : Boundary) (s : State) (k : PacketId) :
    (evaluatedPku b s).refs[k] = evalRef b s k := by
  match k with
  | 0 =>
    exact (updAt_ne (s.pku.refs.set 0 (evalRef b s 0)) (i := (1 : PacketId)) (j := (0 : PacketId))
      (fun _ => evalRef b s 1) (by decide)).trans (updAt_self s.pku.refs (0 : PacketId) fun _ => evalRef b s 0)
  | 1 => exact updAt_self (s.pku.refs.set 0 (evalRef b s 0)) (1 : PacketId) fun _ => evalRef b s 1

theorem takePacketEvaluation_eq {s : State} {b : Boundary} {rest : List Boundary}
    (h : s.wires.pkuBnd = b :: rest) : takePacketEvaluation s = { s with
      pku := { settleMark b (evaluatedPku b s) with label := b.label, repeated := b.repeated }
      wires := { s.wires with
        pkuBnd := rest
        arrivals := s.wires.arrivals ++ (evalHands b s 0 ++ evalHands b s 1) } } := by
  have hfold : ∀ u : State, (List.finRange 2).foldl (evaluatePacket b) u
      = evaluatePacket b (evaluatePacket b u 0) 1 := fun u => rfl
  have hlast : ∀ u : State, (evaluatePacket b u 0).pku.refs[(1 : PacketId)]
      = u.pku.refs[(1 : PacketId)] := fun u => by
    rw [evaluatePacket_eq]
    exact updAt_ne u.pku.refs (i := (0 : PacketId)) (j := (1 : PacketId)) (fun _ => evalRef b u 0) (by decide)
  have h1 : ∀ u : State, evalRef b (evaluatePacket b u 0) 1 = evalRef b u 1
      ∧ evalHands b (evaluatePacket b u 0) 1 = evalHands b u 1 := fun u =>
    evalRef_congr (by rw [evaluatePacket_eq]) (by rw [evaluatePacket_eq]) (by rw [evaluatePacket_eq])
      (hlast u)
  have htwo : ∀ u : State, (List.finRange 2).foldl (evaluatePacket b) u = { u with
      pku := evaluatedPku b u
      wires := { u.wires with
        arrivals := u.wires.arrivals ++ (evalHands b u 0 ++ evalHands b u 1) } } := fun u => by
    rw [hfold, evaluatePacket_eq, (h1 u).1, (h1 u).2, evaluatePacket_eq]
    simp only [List.append_assoc]
    rfl
  simp only [takePacketEvaluation, h, htwo]
  rfl

/-! ### The chosen sample (R48) -/

theorem chooseFrom_mem {i : Nat} {l : List WindowEntry} {p : Nat × WindowEntry}
    (h : chooseFrom i l = some p) : p.2 ∈ l ∧ p.2.inSpan = true := by
  induction l generalizing i p with
  | nil => cases h
  | cons e rest ih =>
    unfold chooseFrom at h
    split at h
    · split at h
      · rename_i he; cases h; exact ⟨List.mem_cons_self .., he⟩
      · cases h
    · rename_i j c hrest
      obtain ⟨hm, hc⟩ := ih hrest
      split at h
      · rename_i he
        cases h
        exact ⟨List.mem_cons_self .., (Bool.and_eq_true_iff.mp he).1⟩
      · cases h; exact ⟨List.mem_cons_of_mem _ hm, hc⟩

theorem chooseFrom_none {i : Nat} {l : List WindowEntry} (h : ∀ x ∈ l, x.inSpan = false) :
    chooseFrom i l = none := by
  rcases hc : chooseFrom i l with _ | p
  · rfl
  · obtain ⟨hm, ht⟩ := chooseFrom_mem hc
    rw [h _ hm] at ht
    cases ht

/-- The newest of the entries in span with the least round trip is the one chosen. -/
theorem chooseFrom_least {i : Nat} {older newer : List WindowEntry} {c : WindowEntry}
    (hc : c.inSpan = true) (ho : ∀ x ∈ older, x.inSpan = true → c.d ≤ x.d)
    (hn : ∀ x ∈ newer, x.inSpan = true → c.d < x.d) :
    chooseFrom i (older ++ c :: newer) = some (i + older.length, c) := by
  induction older generalizing i with
  | nil =>
    rw [List.nil_append, chooseFrom]
    rcases hrest : chooseFrom (i + 1) newer with _ | ⟨j, x⟩
    · simp [hc]
    · obtain ⟨hm, hx⟩ := chooseFrom_mem hrest
      simp [hc, hn x hm hx]
  | cons e rest ih =>
    rw [List.cons_append, chooseFrom, ih fun x hx => ho x (List.mem_cons_of_mem _ hx)]
    have hno : (e.inSpan && decide (e.d < c.d)) = false := by
      by_cases he : e.inSpan = true
      · rw [decide_eq_false (Int.not_lt.mpr (ho e (List.mem_cons_self ..) he)), Bool.and_false]
      · rw [Bool.not_eq_true] at he; rw [he, Bool.false_and]
    simp only [hno, List.length_cons]
    rw [Nat.add_right_comm i 1]
    rfl

theorem markChosen_at {older newer : List WindowEntry} {c : WindowEntry} :
    markChosen (some (older.length, c)) (older ++ c :: newer)
      = older ++ { c with chosen := true } :: newer := by
  rw [markChosen]
  induction older with
  | nil => rfl
  | cons x rest ih => rw [List.cons_append, List.length_cons, List.modify_succ_cons, ih]; rfl

theorem settleMark_refs (b : Boundary) (p : Pku) (k : PacketId) : (settleMark b p).refs[k] =
    if stepOf b ≠ 0 then { p.refs[k] with window := [] } else p.refs[k] := by
  unfold settleMark
  by_cases hv : stepOf b ≠ 0
  · rw [if_pos hv, if_pos hv]
    exact Vector.getElem_map ..
  · rw [if_neg hv, if_neg hv]
    split <;> rfl

theorem settleMark_stepMark (b : Boundary) (p : Pku) : (settleMark b p).stepMark =
    if stepOf b ≠ 0 then some b.label else if b.setTime = true then none else p.stepMark := by
  unfold settleMark
  split
  · rfl
  · split <;> rfl

theorem settleMark_board (b : Boundary) (p : Pku) : (settleMark b p).board = p.board := by
  unfold settleMark
  split
  · rfl
  · split <;> rfl

/-- The detail of every evaluated reference; the window stands while no step is applied (R45, R47). -/
theorem evalRef_counts (b : Boundary) (s : State) (k : PacketId) : (evalRef b s k).accepted = 0
    ∧ (evalRef b s k).rejected = 0 ∧ (evalRef b s k).lastAccepted = s.pku.refs[k].accepted
    ∧ (evalRef b s k).lastRejected = s.pku.refs[k].rejected
    ∧ (evalRef b s k).window.length = s.pku.refs[k].window.length := by
  unfold evalRef
  split
  · exact ⟨rfl, rfl, rfl, rfl, (markChosen_length ..).trans (List.length_map ..)⟩
  · exact ⟨rfl, rfl, rfl, rfl, rfl⟩

theorem evalHands_mem {b : Boundary} {s : State} {k : PacketId} {m : RawMeas}
    (h : m ∈ evalHands b s 0 ++ evalHands b s 1) (hr : m.ref = pktRef k) :
    s.qsu.refs[pktRef k].cfg.enabled = true ∧ m = evalMeas b s k := by
  have hone : ∀ j : PacketId, m ∈ evalHands b s j →
      s.qsu.refs[pktRef k].cfg.enabled = true ∧ m = evalMeas b s k := fun j hj => by
    unfold evalHands at hj
    split at hj
    · rename_i he
      obtain rfl := List.mem_singleton.mp hj
      have hjk : j = k := by
        have hv : j.val + 6 = k.val + 6 := congrArg Fin.val hr
        exact Fin.ext (by omega)
      subst hjk
      exact ⟨he, rfl⟩
    · cases hj
  exact (List.mem_append.mp h).elim (hone 0) (hone 1)

theorem evalHands_refs (b : Boundary) (s : State) :
    (evalHands b s 0 ++ evalHands b s 1).map (·.ref)
      = [6, 7].filter (fun r : Ref => s.qsu.refs[r].cfg.enabled) := by
  have hone : ∀ k : PacketId, (evalHands b s k).map (·.ref)
      = [pktRef k].filter fun r : Ref => s.qsu.refs[r].cfg.enabled := fun k => by
    by_cases he : s.qsu.refs[pktRef k].cfg.enabled = true
    · rw [evalHands, if_pos he, List.filter_cons_of_pos (by exact he)]
      rfl
    · rw [evalHands, if_neg he, List.filter_cons_of_neg (by exact he)]
      rfl
  rw [List.map_append, hone, hone, ← List.filter_append]
  rfl

/-- Settles O30. -/
theorem packetEvaluationPicksLeastDelay : Obligations.PacketEvaluationPicksLeastDelay := by
  intro s b rest o v ins marked hw ho hv hins hmarked
  rw [← stepOf_eq] at hv
  subst ho hv
  have hspan : ∀ k, spanMarked s k = s.pku.refs[k].window.map (marked k) := fun k => by
    refine List.map_congr_left fun x _ => ?_
    have hx : inSpanOf s.pku.label s.qsu.refs[pktRef k].cfg.span x = ins k x := by
      rw [Bool.eq_iff_iff, hins]
      exact decide_eq_true_iff
    rw [hmarked, hx]
  have hmarkedSpan : ∀ k x, (marked k x).inSpan = ins k x ∧ (marked k x).d = x.d := fun k x => by
    rw [hmarked]; exact ⟨rfl, rfl⟩
  generalize ht : takePacketEvaluation s = t
  have hpku : t.pku = { settleMark b (evaluatedPku b s) with label := b.label, repeated := b.repeated } := by
    rw [← ht, takePacketEvaluation_eq hw]
  have hrefs : ∀ k : PacketId, t.pku.refs[k] = if stepOf b ≠ 0 then { evalRef b s k with window := [] }
      else evalRef b s k := fun k => by
    rw [hpku, ← evaluatedPku_refs]
    exact settleMark_refs ..
  have hone : ∀ (P : PacketRef → Prop) (k : PacketId), (∀ w, P { evalRef b s k with window := w }) →
      P t.pku.refs[k] := fun P k hP => by
    rw [hrefs k]
    exact ite_cases (hP []) (hP _)
  have hkeeps : ∀ k : PacketId, stepOf b = 0 → t.pku.refs[k].window = (evalRef b s k).window :=
    fun k h0 => by rw [hrefs k, if_neg (not_not_intro h0)]
  refine ⟨t, evalHands b s 0 ++ evalHands b s 1, congrArg Host.Outcome.next ht,
    by rw [← ht, takePacketEvaluation_eq hw], evalHands_refs b s, fun k p hp m hm hr => ?_, fun k he => ?_,
    fun k => ?_, fun hv => ?_, fun hv => ?_, by rw [hpku], by rw [hpku], ?_, ?_⟩
  · subst hp
    obtain ⟨he, rfl⟩ := evalHands_mem hm hr
    have heval : evalRef b s k = turnCounts { s.pku.refs[k] with
        window := markChosen (chosenOf s k) (spanMarked s k)
        prev := some ⟨(evalMeas b s k).e, (evalMeas b s k).outcome == .clean⟩
        lastInSpan := inSpanCount s k
        lastChosen := (chosenOf s k).map fun c => ⟨c.2.t2, c.2.o, c.2.d⟩ } := if_pos he
    have hcount : inSpanCount s k = (s.pku.refs[k].window.filter (ins k)).length := by
      rw [inSpanCount, hspan, List.filter_map, List.length_map]
      exact congrArg (fun f => (s.pku.refs[k].window.filter f).length)
        (funext fun x => (hmarkedSpan k x).1)
    have hdelta : (evalMeas b s k).delta = phaseDelta ((evalMeas b s k).outcome == .clean)
        (evalMeas b s k).e s.pku.refs[k].prev (stepOf b) := rfl
    refine ⟨rfl, rfl, hcount, ?_, rfl, rfl, fun hnone => ?_, fun older c newer hwin hc hold hnew => ?_,
      fun e before hp hclean hme => ?_, fun hno => ?_, ?_⟩
    · exact hone (fun p => p.lastInSpan = _) k fun w => by rw [heval]; rfl
    · have hch : chosenOf s k = none := by
        rw [chosenOf, hspan]
        refine chooseFrom_none fun x hx => ?_
        obtain ⟨y, hy, rfl⟩ := List.mem_map.mp hx
        rw [(hmarkedSpan k y).1, hnone y hy]
      refine ⟨?_, ?_, ?_, ?_, fun h0 => ?_⟩
      · rw [evalMeas, hch]; rfl
      · rw [evalMeas, hch]; rfl
      · rw [evalMeas, hch]; rfl
      · exact hone (fun p => p.lastChosen = _) k fun w => by rw [heval, hch]; rfl
      · rw [hkeeps k h0, heval, hch, hspan]; rfl
    · have hch : chosenOf s k = some (older.length, marked k c) := by
        rw [chosenOf, hspan, hwin, List.map_append, List.map_cons]
        refine (chooseFrom_least ((hmarkedSpan k c).1.trans hc) ?_ ?_).trans ?_
        · intro x hx hs
          obtain ⟨y, hy, rfl⟩ := List.mem_map.mp hx
          rw [(hmarkedSpan k y).1] at hs
          rw [(hmarkedSpan k c).2, (hmarkedSpan k y).2]
          exact hold y hy hs
        · intro x hx hs
          obtain ⟨y, hy, rfl⟩ := List.mem_map.mp hx
          rw [(hmarkedSpan k y).1] at hs
          rw [(hmarkedSpan k c).2, (hmarkedSpan k y).2]
          exact hnew y hy hs
        · rw [List.length_map, Nat.zero_add]
      have hmc : marked k c = { c with inSpan := true, chosen := false } := by rw [hmarked, hc]
      refine ⟨?_, ?_, ?_, ?_, fun h0 => ?_⟩
      · rw [evalMeas, hch, hmc]; rfl
      · rw [evalMeas, hch, hmc]; rfl
      · rw [evalMeas, hch, hmc]; rfl
      · exact hone (fun p => p.lastChosen = _) k fun w => by rw [heval, hch, hmc]; rfl
      · have hwindow : (evalRef b s k).window = markChosen (chosenOf s k) (spanMarked s k) := by
          rw [heval]; rfl
        rw [hkeeps k h0, hwindow, hch, hspan, hwin, List.map_append, List.map_cons, ← List.length_map (marked k),
          markChosen_at, hmc]
    · rw [hdelta, hclean, hme, hp]
      exact phaseDelta_clean rfl rfl
    · rw [hdelta]
      exact phaseDelta_none (hno.imp_left beq_eq_false_iff_ne.mpr)
    · exact hone (fun p => p.prev = _) k fun w => by rw [heval]; rfl
  · have heval : evalRef b s k = turnCounts s.pku.refs[k] := if_neg (by rw [he]; decide)
    refine ⟨hone (fun p => p = { s.pku.refs[k] with
      window := p.window, accepted := 0, rejected := 0
      lastAccepted := s.pku.refs[k].accepted, lastRejected := s.pku.refs[k].rejected }) k
      fun w => by rw [heval]; rfl, fun h0 => by rw [hkeeps k h0, heval]; rfl⟩
  · obtain ⟨h1, h2, h3, h4, h5⟩ := evalRef_counts b s k
    refine ⟨hone (fun p => p.accepted = 0) k fun _ => h1, hone (fun p => p.rejected = 0) k fun _ => h2,
      hone (fun p => p.lastAccepted = _) k fun _ => h3, hone (fun p => p.lastRejected = _) k fun _ => h4,
      fun hv => ?_, fun h0 => by rw [hkeeps k h0, h5]⟩
    rw [hrefs k, if_pos hv]
  · rw [hpku]
    exact (settleMark_stepMark ..).trans (if_pos hv)
  · rw [hpku]
    exact (settleMark_stepMark ..).trans (if_neg (not_not_intro hv))
  · rw [hpku]
    exact settleMark_board ..
  · rw [← ht, takePacketEvaluation_eq hw]
    simp [KeepsAllBut]

end Sys2Proof.Machine
end

section
/-! PROOFS. Qualification and selection: what a review gives, the reference state machine, faults from
outside, and the requests that run the review. -/

namespace Sys2Proof.Machine

open Sys2Proof.Safety Config

/-! ### The best candidate (R70) -/

/-- The better of the best candidate so far and a reference with a higher index. -/
def better (refs : Vector RefEntry 8) (best : Option Ref) (r : Ref) : Option Ref :=
  if isCandidate refs[r] then
    match best with
    | none => some r
    | some b => if refs[r].cfg.priority < refs[b].cfg.priority then some r else best
  else best

theorem bestCandidate_eq (refs : Vector RefEntry 8) :
    bestCandidate refs = (List.finRange 8).foldl (better refs) none := rfl

/-- The best candidate among the references listed. -/
def BestAmong (q : Qsu) (seen : List Ref) (o : Option Ref) : Prop :=
  (o = none ↔ ∀ r ∈ seen, ¬Candidate q r)
  ∧ ∀ r, o = some r → Candidate q r ∧ ∀ x ∈ seen, Candidate q x →
      q.refs[r].cfg.priority < q.refs[x].cfg.priority
      ∨ (q.refs[r].cfg.priority = q.refs[x].cfg.priority ∧ r ≤ x)

theorem bestAmong_better {q : Qsu} {seen : List Ref} {o : Option Ref} {a : Ref} (h : BestAmong q seen o)
    (hle : ∀ r, o = some r → r ≤ a) : BestAmong q (seen ++ [a]) (better q.refs o a) := by
  obtain ⟨hnone, hbest⟩ := h
  unfold better
  by_cases hc : isCandidate q.refs[a] = true
  · have hca : Candidate q a := (isCandidate_iff q a).mp hc
    rw [if_pos hc]
    rcases o with _ | b
    · have hno := hnone.mp rfl
      refine ⟨by simpa using Or.inr hca, fun r hr => ?_⟩
      cases hr
      refine ⟨hca, fun x hx hcx => ?_⟩
      obtain hx | rfl := by simpa using hx
      · exact absurd hcx (hno x hx)
      · exact .inr ⟨rfl, le_refl _⟩
    · obtain ⟨hcb, hmin⟩ := hbest b rfl
      dsimp only
      split
      · rename_i hlt
        refine ⟨by simpa using Or.inr hca, fun r hr => ?_⟩
        cases hr
        refine ⟨hca, fun x hx hcx => ?_⟩
        obtain hx | rfl := by simpa using hx
        · obtain h | ⟨h, -⟩ := hmin x hx hcx <;> exact .inl (by omega)
        · exact .inr ⟨rfl, le_refl _⟩
      · rename_i hge
        refine ⟨by simpa using Or.inr hca, fun r hr => ?_⟩
        cases hr
        refine ⟨hcb, fun x hx hcx => ?_⟩
        obtain hx | rfl := by simpa using hx
        · exact hmin x hx hcx
        · obtain h | h := Nat.lt_or_eq_of_le (Nat.not_lt.mp hge)
          · exact .inl h
          · exact .inr ⟨h, hle b rfl⟩
  · have hca : ¬Candidate q a := fun h => hc ((isCandidate_iff q a).mpr h)
    rw [if_neg hc]
    refine ⟨?_, fun r hr => ⟨(hbest r hr).1, fun x hx hcx => ?_⟩⟩
    · rw [hnone]
      simp [or_imp, forall_and, hca]
    · obtain hx | rfl := by simpa using hx
      · exact (hbest r hr).2 x hx hcx
      · exact absurd hcx hca

theorem better_le {refs : Vector RefEntry 8} {o : Option Ref} {a : Ref} (hle : ∀ r, o = some r → r ≤ a) :
    ∀ r, better refs o a = some r → r ≤ a := by
  unfold better
  split
  · split
    · rintro r hr; cases hr; exact le_refl _
    · split
      · rintro r hr; cases hr; exact le_refl _
      · exact hle
  · exact hle

theorem bestAmong_foldl {q : Qsu} (l : List Ref) {seen : List Ref} {o : Option Ref}
    (h : BestAmong q seen o) (hl : l.Pairwise (· ≤ ·)) (hle : ∀ a ∈ l, ∀ r, o = some r → r ≤ a) :
    BestAmong q (seen ++ l) (l.foldl (better q.refs) o) := by
  induction l generalizing seen o with
  | nil => simpa using h
  | cons a l ih =>
    obtain ⟨ha, hl⟩ := List.pairwise_cons.mp hl
    have hb := ih (bestAmong_better h (hle a (by simp))) hl fun b hb r hr =>
      (better_le (hle a (by simp)) r hr).trans (ha b hb)
    simpa using hb

theorem bestCandidate_best (q : Qsu) : Best q (bestCandidate q.refs) := by
  have h := bestAmong_foldl (q := q) (List.finRange 8) (seen := []) (o := none) ⟨by simp, nofun⟩
    (by decide) (by simp)
  rw [bestCandidate_eq]
  simpa [BestAmong, Best] using h

/-! ### The review (R71, R72) -/

theorem automaticChoice_none {q : Qsu} (h : ∀ c, q.selected = some c → ¬Candidate q c) :
    automaticChoice q = bestCandidate q.refs := by
  rcases hs : q.selected with _ | c
  · simp only [automaticChoice, hs]
  · have hc : ¬isCandidate q.refs[c] = true := fun hc => h c hs ((isCandidate_iff q c).mp hc)
    simp only [automaticChoice, hs, if_neg hc]

theorem automaticChoice_keeps {q : Qsu} {c : Ref} (hs : q.selected = some c) (hc : Candidate q c)
    (hr : q.revertive = false) : automaticChoice q = some c := by
  simp only [automaticChoice, hs, if_pos ((isCandidate_iff q c).mpr hc), hr]

theorem automaticChoice_reverts {q : Qsu} {c : Ref} (hs : q.selected = some c) (hc : Candidate q c)
    (hr : q.revertive = true) : ∃ b, Best q (some b) ∧ automaticChoice q
      = if q.refs[b].cfg.priority < q.refs[c].cfg.priority then some b else some c := by
  have hbest := bestCandidate_best q
  rcases hb : bestCandidate q.refs with _ | b
  · rw [hb] at hbest
    exact absurd hc (hbest.1.mp rfl c)
  · rw [hb] at hbest
    refine ⟨b, hbest, ?_⟩
    simp only [automaticChoice, hs, if_pos ((isCandidate_iff q c).mpr hc), hr, hb]

theorem reviewed_reviewResult {warm : Bool} {p : Prop} (hp : warm = true ↔ p) (q : Qsu) :
    Reviewed p q (reviewResult warm q) := by
  refine ⟨fun h => ?_, fun hw hh => ?_⟩
  · have hb : (warm || q.forcedHoldover) = true := by
      rw [Bool.or_eq_true, hp]
      exact h
    exact if_pos hb
  · have hb : ¬(warm || q.forcedHoldover) = true := by
      rw [Bool.or_eq_true, hp, hh]
      simpa using hw
    have hauto : (∀ f, q.forced = some f → ¬Candidate q f) → reviewResult warm q = automaticChoice q := by
      intro hf
      rcases hq : q.forced with _ | f
      · simp only [reviewResult, if_neg hb, hq]
      · have hc : ¬isCandidate q.refs[f] = true := fun hc => hf f hq ((isCandidate_iff q f).mp hc)
        simp only [reviewResult, if_neg hb, hq, if_neg hc]
    refine ⟨fun f hf hc => ?_, fun hf => ?_⟩
    · simp only [reviewResult, if_neg hb, hf, if_pos ((isCandidate_iff q f).mpr hc)]
    · rw [hauto hf]
      refine ⟨fun hs => ?_, fun c hs hc => ⟨automaticChoice_keeps hs hc, automaticChoice_reverts hs hc⟩⟩
      rw [automaticChoice_none hs]
      exact bestCandidate_best q

/-! ### What a review tells (R77, R172) -/

theorem attnBumped_from {extra : List AttnClass} {s u t : State} (ha : u.xu.attn = s.xu.attn)
    (hx : u.xu.slots = s.xu.slots) (he : u.alu.entries = s.alu.entries)
    (hq : u.qsu.selected = s.qsu.selected) (hp : u.ptu.ports = s.ptu.ports)
    (h : AttnBumped extra u t) : AttnBumped extra s t := by
  simpa only [AttnBumped, bumpsShown, ha, hx, he, hq, hp] using h

theorem bumpsShown_select (s t : State) :
    bumpsShown s t clsSelect = if t.qsu.selected = s.qsu.selected then 0 else 1 :=
  (if_neg (by decide)).trans ((if_neg (by decide)).trans (if_pos rfl))

/-- The class SELECT of SelectionTold follows from the classes' bumps. -/
theorem selectionTold_of {fault : Bool} {s t : State} (hb : AttnBumped [] s t)
    (hsame : t.qsu.selected = s.qsu.selected → t.wires.loopIn = s.wires.loopIn)
    (hnew : t.qsu.selected ≠ s.qsu.selected →
      t.wires.loopIn = s.wires.loopIn ++ [.selection s.qsu.selected t.qsu.selected fault]) :
    SelectionTold fault s t := by
  have hsel := hb clsSelect _ rfl
  rw [bumpsShown_select] at hsel
  refine ⟨hb, fun h => ⟨hsame h, ?_⟩, fun h => ⟨hnew h, ?_, ?_⟩⟩
  · rw [if_pos h] at hsel
    rw [hsel]
    exact BitVec.add_zero _
  · rw [if_neg h] at hsel
    rw [hsel]
    rfl
  · rw [if_neg h] at hsel
    rw [hsel]
    exact Bool.or_true _

/-- A review of a state that differs from `s` in nothing that the review's telling counts from. -/
theorem reviewRuns_review {s u : State} {w : Wires} {q : Qsu} {fault : Bool} (f : Option Ref)
    (hw : u.wires = w) (hq : u.qsu = q) (hf : (f.isSome && f == s.qsu.selected) = fault)
    (hwarm : inWarmUp u = inWarmUp s) (hsel : q.selected = s.qsu.selected)
    (hloop : w.loopIn = s.wires.loopIn) (hattn : u.xu.attn = s.xu.attn)
    (hslots : u.xu.slots = s.xu.slots) (hent : u.alu.entries = s.alu.entries)
    (hports : u.ptu.ports = s.ptu.ports) : ReviewRuns w q fault s (review f u) := by
  subst hw hq hf
  obtain ⟨hb, hsame, hnew⟩ := review_told f u
  rw [hloop, hsel] at hnew
  rw [hloop, hsel] at hsame
  have hset := review_settles f u
  have hselected := review_selected f u
  refine ⟨?_, selectionTold_of (attnBumped_from hattn hslots hent hsel hports hb) (fun h => (hsame h).1)
    fun h => (hnew h).1, ?_, ?_, review_wires f u⟩
  · rw [hselected, hwarm]
    exact reviewed_reviewResult (inWarmUp_iff s) u.qsu
  · rw [hselected, hset]
    simp [Option.isSome_iff_ne_none]
  · exact hset.trans (by rw [hset])

/-- A reference that is not QUALIFIED is not selected by a review. -/
theorem review_unselects {r : Ref} {s : State} (f : Option Ref) (h : s.qsu.refs[r].state ≠ .qualified) :
    (review f s).qsu.selected ≠ some r := by
  rw [review_selected]
  intro hr
  exact h ((isCandidate_iff s.qsu r).mp (reviewResult_candidate hr).1).1

/-! ### Completing after a review (R171) -/

theorem reviewRuns_completeNow {w : Wires} {q : Qsu} {fault : Bool} {s u : State}
    (h : ReviewRuns w q fault s u) {n : Slot} (k : Completion) (ht : u.xu.slots[n].state = .taken)
    (hs : s.xu.slots[n].state = .taken) : ReviewRuns w q fault s (completeNow n k u) := by
  obtain ⟨hrev, ⟨hb, hsame, hnew⟩, hforce, hqsu, hwires⟩ := h
  have hq := completeNow_qsu u n k
  have hw := completeNow_wires u n k
  refine ⟨by rwa [hq], selectionTold_of (attnBumped_complete k _ [] ht (by rw [hs]; decide) hb) ?_ ?_,
    by rwa [hq], by rwa [hq], by rwa [hw, hq]⟩
  · rw [hq, hw]; exact fun h => (hsame h).1
  · rw [hq, hw]; exact fun h => (hnew h).1

/-- The held request completes after work that bumped classes of its own. -/
theorem completesHeld_after {s u : State} {n : Slot} {kind : Nat} (k : Completion) (h : Held n kind s)
    (hx : u.xu = { s.xu with unit := none, attn := u.xu.attn, inta := u.xu.inta, intb := u.xu.intb })
    (hb : AttnBumped [] s u) (hl : u.tsu.label = s.tsu.label) :
    CompletesHeld n k.code s.tsu.label s (completeNow n k u) := by
  have hslots : u.xu.slots = s.xu.slots := by rw [hx]
  obtain ⟨hchange, hdone⟩ := changesXu_complete k s.tsu.label ⟨by rw [hslots]; exact hx, hb⟩
    (congrArg (fun v : Vector RequestSlot 16 => v[n]) hslots) h.2.1
  have hzero : bumpsShown s u clsDone = 0 := by
    refine (if_pos rfl).trans ?_
    rw [hslots]
    exact List.countP_eq_zero.mpr fun m _ hm => absurd (of_decide_eq_true hm).2 (of_decide_eq_true hm).1
  have hcount : u.xu.attn[clsDone].count = s.xu.attn[clsDone].count := by
    rw [hb clsDone _ rfl, hzero]
    exact BitVec.add_zero _
  have heq : completeNow n k u = complete n k s.tsu.label [] u := by rw [completeNow, hl]
  rw [heq]
  refine ⟨?_, by rw [hdone, hcount], by rw [hdone]⟩
  rw [hslots] at hchange
  exact hchange

end Sys2Proof.Machine
end

section
/-! PROOFS. The end of warm-up, the reference state machine on arrivals and faults from outside, and the
requests that run the review. -/

namespace Sys2Proof.Machine

open Sys2Proof.Safety Config

/-! ### The end of warm-up (R16, R76, R82) -/

theorem takeWarmUpEnd_eq {s : State} (he : s.wires.warmEnd = true) (hb : s.wires.lpuBnd = []) :
    takeWarmUpEnd s = review none
      ((s.setWires { s.wires with warmEnd := false }).setLpu { s.lpu with warmHold := false }) := by
  unfold takeWarmUpEnd
  rw [he, hb]
  rfl

/-- Settles O23. -/
theorem warmUpEndSelects : Obligations.WarmUpEndSelects := by
  intro s he hb
  refine ⟨_, congrArg Host.Outcome.next (takeWarmUpEnd_eq he hb), ?_⟩
  generalize hu : (s.setWires { s.wires with warmEnd := false }).setLpu { s.lpu with warmHold := false }
    = u
  have hq : u.qsu = s.qsu := by rw [← hu]; rfl
  have hw : u.wires = { s.wires with warmEnd := false } := by rw [← hu]; rfl
  have hl : u.lpu = { s.lpu with warmHold := false } := by rw [← hu]; rfl
  have hx : u.xu = s.xu := by rw [← hu]; rfl
  have hwarm : inWarmUp u = true ↔ 0 < s.tsu.warmCount := by
    rw [← hu, inWarmUp_iff]; simp [Warming]
  have hrev : Reviewed (0 < s.tsu.warmCount) s.qsu (review none u).qsu.selected := by
    rw [review_selected, ← hq]
    exact reviewed_reviewResult hwarm u.qsu
  have hset := review_settles none u
  have hsel := review_selected none u
  obtain ⟨hbumps, hsame, hnew⟩ := review_told none u
  have hloop : u.wires.loopIn = s.wires.loopIn := by rw [hw]
  have htold : SelectionTold false s (review none u) := by
    rw [hq, hloop] at hsame hnew
    exact selectionTold_of (attnBumped_from (by rw [hx]) (by rw [hx]) (by rw [← hu]; rfl) (by rw [hq])
      (by rw [← hu]; rfl) hbumps) (fun h => (hsame h).1) fun h => (hnew h).1
  refine ⟨by rw [review_lpu, hl], hrev, fun hc hf hh hs => ?_, fun r hc hh hf hcand => ?_, ?_, ?_,
    fun r hs hr => ?_, htold, ⟨by rw [review_xu, hx], htold.1⟩, ?_, ?_⟩
  · have hnone : ∀ c, s.qsu.selected = some c → ¬Candidate s.qsu c := by rw [hs]; nofun
    have hfree : ∀ f, s.qsu.forced = some f → ¬Candidate s.qsu f := by rw [hf]; nofun
    exact ((hrev.2 (by omega) hh).2 hfree).1 hnone
  · exact (hrev.2 (by omega) hh).1 r hf hcand
  · rw [hsel, hset, hq]
    simp [Option.isSome_iff_ne_none]
  · exact hset.trans (by rw [hset, hq])
  · have hne : (review none u).qsu.selected ≠ s.qsu.selected := by rw [hr, hs]; nofun
    rw [(htold.2.2 hne).1, hs, hr]
  · rw [review_wires, hw, hq, Safety.handed]
    simp only [eq_comm (a := s.qsu.forceIneffective)]
  · rw [← hu]
    exact (((setWires_frame s _).mono (by decide)).trans ((setLpu_frame _ _).mono (by decide))).trans
      ((review_frame none _).mono (by decide))

/-! ### A reference's entry replaced, and what is handed with it -/

/-- The state with an entry of the reference table and the wires replaced. -/
def withEntry (r : Ref) (e : RefEntry) (w : Wires) (s : State) : State :=
  { s with qsu := { s.qsu with refs := s.qsu.refs.set r e }, wires := w }

variable {s : State} {r : Ref} {e : RefEntry} {w : Wires}

theorem updRef_withEntry (f : RefEntry → RefEntry) :
    (withEntry r e w s).updRef r f = withEntry r (f e) w s := by
  unfold withEntry State.updRef State.setQsu updAt
  simp

theorem withEntry_entry : (withEntry r e w s).qsu.refs[r] = e := by simp [withEntry]

theorem updRef_eq (f : RefEntry → RefEntry) (s : State) :
    s.updRef r f = withEntry r (f s.qsu.refs[r]) s.wires s := rfl

theorem setRefState_withEntry (st : RefState) (c : Option Cause) :
    setRefState r st c (withEntry r e w s) = withEntry r (enterEntry st c e)
      { w with conds := w.conds ++ handed (codeRefFault r) (e.state == .faulted) (st == .faulted) } s := by
  rw [setRefState, handIfChanged_eq, updRef_withEntry, withEntry_entry]
  rfl

theorem enterState_crosses {st : RefState} (c : Option Cause)
    (h : e.state = .qualified ↔ st ≠ .qualified) : enterState r st c (withEntry r e w s)
      = review (if st = .faulted then some r else none) (setRefState r st c (withEntry r e w s)) := by
  have hb : ¬((withEntry r e w s).qsu.refs[r].state == .qualified) = (st == .qualified) := by
    rw [withEntry_entry, Bool.eq_iff_iff, beq_iff_eq, beq_iff_eq]
    tauto
  unfold enterState
  dsimp only
  rw [if_neg (by simpa using hb)]

theorem enterState_apart {st : RefState} (c : Option Cause)
    (h : e.state = .qualified ↔ st = .qualified) :
    enterState r st c (withEntry r e w s) = setRefState r st c (withEntry r e w s) := by
  have hb : ((withEntry r e w s).qsu.refs[r].state == .qualified) = (st == .qualified) := by
    rw [withEntry_entry, Bool.eq_iff_iff, beq_iff_eq, beq_iff_eq]
    exact h
  unfold enterState
  dsimp only
  rw [if_pos (by simpa using hb)]

theorem handed_same (c : AlarmCode) (a : Bool) : handed c a a = [] := if_pos rfl

/-! ### What a judged arrival does to its reference (R63 to R65) -/

section Advance

variable {c : Cause} {j : Option Cause}

theorem advanceRef_counts (hs : e.state = .qualifying) (h : e.qualifyCount + 1 < e.cfg.qualifyTime) :
    advanceRef r none (withEntry r e w s)
      = withEntry r { e with qualifyCount := e.qualifyCount + 1 } w s := by
  simp only [advanceRef, withEntry_entry, hs, updRef_withEntry, if_neg (Nat.not_le.mpr h)]

theorem advanceRef_qualifies (hs : e.state = .qualifying) (h : e.cfg.qualifyTime ≤ e.qualifyCount + 1) :
    advanceRef r none (withEntry r e w s)
      = review none (withEntry r
        (enterEntry .qualified none { e with qualifyCount := e.qualifyCount + 1 }) w s) := by
  simp only [advanceRef, withEntry_entry, hs, updRef_withEntry, if_pos h]
  rw [enterState_crosses none (by simp), setRefState_withEntry]
  simp [handed]

theorem advanceRef_failsQualifying (hs : e.state = .qualifying) :
    advanceRef r (some c) (withEntry r e w s)
      = withEntry r (enterEntry .faulted (some c) e)
        { w with conds := w.conds ++ [⟨codeRefFault r, true⟩] } s := by
  simp only [advanceRef, withEntry_entry, hs]
  rw [enterState_apart _ (by simp [hs]), setRefState_withEntry, hs]
  rfl

theorem advanceRef_stays (hs : e.state = .qualified) :
    advanceRef r none (withEntry r e w s) = withEntry r { e with badCount := 0 } w s := by
  simp only [advanceRef, withEntry_entry, hs, updRef_withEntry]

theorem advanceRef_bad (hs : e.state = .qualified) (h : e.badCount < e.cfg.badLimit) :
    advanceRef r (some c) (withEntry r e w s)
      = withEntry r { e with badCount := e.badCount + 1 } w s := by
  simp only [advanceRef, withEntry_entry, hs, updRef_withEntry, if_neg (Nat.not_lt.mpr h)]

/-- A QUALIFIED reference enters FAULTED (R62, R64, R67, R68). -/
theorem enterState_faults (hs : e.state = .qualified) (c : Option Cause) :
    enterState r .faulted c (withEntry r e w s)
      = review (some r) (withEntry r (enterEntry .faulted c e)
        { w with conds := w.conds ++ [⟨codeRefFault r, true⟩] } s) := by
  rw [enterState_crosses _ (by simp [hs]), setRefState_withEntry, hs]
  rfl

theorem advanceRef_fails (hs : e.state = .qualified) (h : e.cfg.badLimit ≤ e.badCount) :
    advanceRef r (some c) (withEntry r e w s)
      = review (some r) (withEntry r
        (enterEntry .faulted (some c) { e with badCount := e.badCount + 1 })
        { w with conds := w.conds ++ [⟨codeRefFault r, true⟩] } s) := by
  simp only [advanceRef, withEntry_entry, hs, updRef_withEntry, if_pos (Nat.lt_succ_of_le h)]
  exact enterState_faults (by rfl) _

theorem advanceRef_dwells (hs : e.state = .faulted) (h : e.dwellCount < e.cfg.dwell) :
    advanceRef r j (withEntry r e w s) = withEntry r { e with dwellCount := e.dwellCount + 1 } w s := by
  simp only [advanceRef, withEntry_entry, hs, updRef_withEntry, if_pos h]

theorem lineDown_iff (r : Ref) (q : Qsu) :
    lineDown r q = true ↔ ∃ l : LineId, r = lineRef l ∧ q.lineOk[l] = false := by
  unfold lineDown
  split
  · rename_i h
    refine ⟨fun hl => ⟨0, Fin.ext h, by simpa using hl⟩, fun ⟨l, hr, hl⟩ => ?_⟩
    obtain rfl : l = 0 := Fin.ext (by have := congrArg Fin.val hr; change r.val = l.val + 4 at this; change l.val = 0; omega)
    simpa using hl
  · split
    · rename_i h
      refine ⟨fun hl => ⟨1, Fin.ext h, by simpa using hl⟩, fun ⟨l, hr, hl⟩ => ?_⟩
      obtain rfl : l = 1 := Fin.ext (by have := congrArg Fin.val hr; change r.val = l.val + 4 at this; change l.val = 1; omega)
      simpa using hl
    · refine ⟨nofun, fun ⟨l, hr, _⟩ => ?_⟩
      have := congrArg Fin.val hr
      change r.val = l.val + 4 at this
      omega

theorem lineDown_eq_false (r : Ref) (q : Qsu) :
    lineDown r q = false ↔ ∀ l : LineId, r = lineRef l → q.lineOk[l] = true := by
  rw [← Bool.not_eq_true, lineDown_iff]
  simp

theorem advanceRef_returns (hs : e.state = .faulted) (h : e.cfg.dwell ≤ e.dwellCount)
    (hj : j = none) (hv : e.declaredValid = true) (hl : lineDown r s.qsu = false) :
    advanceRef r j (withEntry r e w s)
      = withEntry r (enterEntry .qualifying none e)
        { w with conds := w.conds ++ [⟨codeRefFault r, false⟩] } s := by
  have hl' : lineDown r (withEntry r e w s).qsu = false := hl
  simp only [advanceRef, withEntry_entry, hs, if_neg (Nat.not_lt.mpr h), hj, hv, hl']
  refine (if_pos rfl).trans ?_
  rw [enterState_apart _ (by simp [hs]), setRefState_withEntry, hs]
  rfl

theorem advanceRef_remains (hs : e.state = .faulted) (h : e.cfg.dwell ≤ e.dwellCount)
    (hb : ¬(j = none ∧ e.declaredValid = true ∧ lineDown r s.qsu = false)) :
    advanceRef r j (withEntry r e w s) = withEntry r e w s := by
  have hl' : lineDown r (withEntry r e w s).qsu = lineDown r s.qsu := rfl
  simp only [advanceRef, withEntry_entry, hs, if_neg (Nat.not_lt.mpr h), hl']
  refine if_neg fun hc => hb ?_
  simpa [and_assoc] using hc

end Advance

/-! ### Arrivals (R60, R61, R69) -/

/-- The state as the reference's state machine finds an arrival: taken and recorded (R61). -/
def recorded (m : RawMeas) (rest : List RawMeas) (s : State) : State :=
  withEntry m.ref { s.qsu.refs[m.ref] with last := some (lastOf m (judge s m)) }
    { s.wires with arrivals := rest } s

/-- The state once the reference has moved by the judged arrival (R63 to R65). -/
def moved (m : RawMeas) (rest : List RawMeas) (s : State) : State :=
  advanceRef m.ref (judge s m) (recorded m rest s)

variable {m : RawMeas} {rest : List RawMeas}

theorem takeArrival_front (h : s.wires.arrivals = m :: rest) : takeArrival m.ref s
    = judgeArrival m (s.setWires { s.wires with arrivals := rest }) := by
  have hf : takeFirst (fun x : RawMeas => x.ref == m.ref) s.wires.arrivals = some (m, rest) := by
    rw [h]
    exact takeFirst_cons _ (by simp)
  simp only [takeArrival, hf]

theorem takeArrival_disabled (h : s.wires.arrivals = m :: rest)
    (hd : s.qsu.refs[m.ref].state = .disabled) :
    takeArrival m.ref s = s.setWires { s.wires with arrivals := rest } :=
  (takeArrival_front h).trans (if_pos hd)

/-- An arrival moves its reference, and a notice goes to the loop where its reference was selected and
still is (R69). -/
theorem takeArrival_moved (h : s.wires.arrivals = m :: rest)
    (hd : s.qsu.refs[m.ref].state ≠ .disabled) :
    takeArrival m.ref s = if s.qsu.selected == some m.ref && (moved m rest s).qsu.selected == some m.ref
      then handLoop (noticeOf m (judge s m)) (moved m rest s) else moved m rest s :=
  (takeArrival_front h).trans (if_neg hd)

theorem takeArrival_quiet (h : s.wires.arrivals = m :: rest)
    (hd : s.qsu.refs[m.ref].state ≠ .disabled)
    (hq : s.qsu.selected = some m.ref → (moved m rest s).qsu.selected ≠ some m.ref) :
    takeArrival m.ref s = moved m rest s :=
  (takeArrival_moved h hd).trans (if_neg fun hc => by
    rw [Bool.and_eq_true, beq_iff_eq, beq_iff_eq] at hc
    exact hq hc.1 hc.2)

/-- An arrival that leaves the selection alone: a notice where its reference is selected (R69). -/
theorem takeArrival_kept {e : RefEntry} {w : Wires} (h : s.wires.arrivals = m :: rest)
    (hd : s.qsu.refs[m.ref].state ≠ .disabled) (hm : moved m rest s = withEntry m.ref e w s) :
    takeArrival m.ref s = withEntry m.ref e { w with
      loopIn := w.loopIn ++ if s.qsu.selected = some m.ref then [noticeOf m (judge s m)] else [] } s := by
  rw [takeArrival_moved h hd, hm]
  by_cases hs : s.qsu.selected = some m.ref
  · have hs' : (withEntry m.ref e w s).qsu.selected = some m.ref := hs
    rw [hs', if_pos (by simp [hs]), if_pos hs]
    rfl
  · rw [if_neg (by simp [hs]), if_neg hs, List.append_nil]

/-- A reference's entry has been replaced, its last measurement and the waiting arrivals stand. -/
def Reentered (r : Ref) (s t : State) : Prop :=
  (∃ e, t.qsu.refs = s.qsu.refs.set r e ∧ e.last = s.qsu.refs[r].last)
  ∧ t.wires.arrivals = s.wires.arrivals

theorem reentered_refl (r : Ref) (s : State) : Reentered r s s :=
  ⟨⟨s.qsu.refs[r], (Vector.set_getElem_self ..).symm, rfl⟩, rfl⟩

theorem enterEntry_last (st : RefState) (c : Option Cause) (e : RefEntry) :
    (enterEntry st c e).last = e.last := by
  unfold enterEntry
  split <;> rfl

theorem Reentered.review {t : State} (h : Reentered r s t) (f : Option Ref) :
    Reentered r s (review f t) := by
  obtain ⟨he, ha⟩ := h
  exact ⟨by rwa [(review_refs f t).1], by rw [review_wires]; exact ha⟩

theorem Reentered.updRef {f : RefEntry → RefEntry} (hf : ∀ e, (f e).last = e.last) (r : Ref)
    (s : State) : Reentered r s (s.updRef r f) :=
  ⟨⟨_, rfl, hf _⟩, rfl⟩

theorem Reentered.enterState {t : State} (h : Reentered r s t) (st : RefState) (c : Option Cause) :
    Reentered r s (enterState r st c t) := by
  have hset : Reentered r s (setRefState r st c t) := by
    obtain ⟨⟨e, he, hl⟩, ha⟩ := h
    refine ⟨⟨enterEntry st c e, ?_, by rw [enterEntry_last, hl]⟩, ?_⟩
    · rw [setRefState_qsu, updRef_eq, withEntry]
      simp [he]
    · rw [setRefState, handIfChanged_eq]; exact ha
  unfold Machine.enterState
  exact ite_cases hset (hset.review _)

theorem advanceRef_reentered (r : Ref) (j : Option Cause) (s : State) :
    Reentered r s (advanceRef r j s) := by
  have hs := reentered_refl r s
  have hu : ∀ f : RefEntry → RefEntry, (∀ e, (f e).last = e.last) → Reentered r s (s.updRef r f) :=
    fun _ hf => .updRef hf r s
  unfold advanceRef
  dsimp only
  split
  · exact hs
  · split
    · have hc := hu (fun e => { e with qualifyCount := e.qualifyCount + 1 }) fun _ => rfl
      exact ite_cases (hc.enterState ..) hc
    · exact hs.enterState ..
  · split
    · exact hu _ fun _ => rfl
    · have hc := hu (fun e => { e with badCount := e.badCount + 1 }) fun _ => rfl
      exact ite_cases (hc.enterState ..) hc
  · exact ite_cases (hu _ fun _ => rfl) (ite_cases (hs.enterState ..) hs)

/-- What every arrival leaves: its measurement recorded, the other references and the arrivals behind it
as they were. -/
theorem takeArrival_records (h : s.wires.arrivals = m :: rest)
    (hd : s.qsu.refs[m.ref].state ≠ .disabled) :
    (takeArrival m.ref s).qsu.refs[m.ref].last = some (lastOf m (judge s m))
    ∧ (takeArrival m.ref s).wires.arrivals = rest
    ∧ ∀ x : Ref, x ≠ m.ref → (takeArrival m.ref s).qsu.refs[x] = s.qsu.refs[x] := by
  obtain ⟨⟨e, he, hl⟩, ha⟩ := advanceRef_reentered m.ref (judge s m) (recorded m rest s)
  have hkeep : (takeArrival m.ref s).qsu = (moved m rest s).qsu
      ∧ (takeArrival m.ref s).wires.arrivals = (moved m rest s).wires.arrivals := by
    rw [takeArrival_moved h hd]
    split <;> exact ⟨rfl, rfl⟩
  rw [hkeep.1, hkeep.2, moved, he]
  refine ⟨?_, ha, fun x hx => ?_⟩
  · rw [recorded, withEntry_entry] at hl
    simpa using hl
  · have hx' : m.ref.val ≠ x.val := fun hv => hx (Fin.ext hv).symm
    simp [recorded, withEntry, Vector.getElem_set_ne _ _ hx']

/-! ### The judged outcome (R60) -/

/-- The deviation of a clean measurement is beyond the frequency tolerance (R60). -/
def freqTooFar (s : State) (m : RawMeas) : Bool :=
  m.delta.any fun d => (if refKind m.ref == .pps || refKind m.ref == .pkt then 1 else m.span.getD 1)
    * s.qsu.refs[m.ref].cfg.freqTol < d.natAbs

/-- The phase of a clean measurement of a reference not selected is beyond its tolerance (R60). -/
def phaseTooFar (s : State) (m : RawMeas) : Bool :=
  (refKind m.ref == .pps || refKind m.ref == .pkt) && s.qsu.selected != some m.ref
    && s.lpu.state == .track && m.e.any fun e => s.qsu.refs[m.ref].cfg.phaseTol < e.natAbs

theorem judge_clean {s : State} {m : RawMeas} (hm : m.outcome = .clean) : judge s m
    = if freqTooFar s m then some .toleranceFreq else if phaseTooFar s m then some .tolerancePhase
      else none := by
  simp only [judge, hm]
  rfl

theorem freqTooFar_iff {s : State} {m : RawMeas} {phase : Prop}
    (hphase : phase ↔ refKind m.ref = .pps ∨ refKind m.ref = .pkt) : freqTooFar s m = true ↔
      ∃ x, m.delta = some x ∧ ((phase ∧ s.qsu.refs[m.ref].cfg.freqTol < x.natAbs)
        ∨ (¬phase ∧ m.span.getD 1 * s.qsu.refs[m.ref].cfg.freqTol < x.natAbs)) := by
  unfold freqTooFar
  by_cases h : phase
  · have hk := hphase.mp h
    rcases m.delta with _ | x <;> simp [h, hk]
  · have hk := mt hphase.mpr h
    rcases m.delta with _ | x <;> simp [h, hk]

theorem phaseTooFar_iff {s : State} {m : RawMeas} {phase : Prop}
    (hphase : phase ↔ refKind m.ref = .pps ∨ refKind m.ref = .pkt) : phaseTooFar s m = true ↔
      phase ∧ s.qsu.selected ≠ some m.ref ∧ s.lpu.state = .track
        ∧ ∃ x, m.e = some x ∧ s.qsu.refs[m.ref].cfg.phaseTol < x.natAbs := by
  rw [hphase, phaseTooFar]
  rcases m.e with _ | x <;> simp [and_assoc]

/-- Settles O31. -/
theorem arrivalsAreJudged : Obligations.ArrivalsAreJudged := by
  intro s m rest cfg phase h hcfg hphase
  subst hcfg
  refine ⟨fun hd => congrArg Host.Outcome.next (takeArrival_disabled h hd), fun hd => ?_⟩
  obtain ⟨hlast, harr, hothers⟩ := takeArrival_records h hd
  have hcause : ∀ (o : RawOutcome) (c : Cause), m.outcome = o →
      (m.outcome = o → judge s m = some c) → judge s m = some c := fun _ _ ho hj => hj ho
  refine ⟨takeArrival m.ref s, lastOf m (judge s m), rfl, hlast, rfl, rfl, rfl, ?_, ?_, rfl, rfl, rfl, rfl,
    ?_, ?_, ?_, ?_, ?_, ?_, harr, hothers, takeArrival_frame m.ref s⟩
  · intro hr; simp [lastOf, hr]
  · intro v hr; simp [lastOf, hr]
  · intro ho; simp [lastOf, judge, ho]
  · intro ho; simp [lastOf, judge, ho]
  · intro ho; simp [lastOf, judge, ho]
  · intro ho; simp [lastOf, judge, ho]
  · intro ho; simp [lastOf, judge, ho]
  · intro ho freqBad phaseBad hf hp
    rw [← freqTooFar_iff hphase] at hf
    rw [← phaseTooFar_iff hphase] at hp
    change (freqBad → judge s m = _) ∧ (¬freqBad → phaseBad → judge s m = _)
      ∧ (¬freqBad → ¬phaseBad → judge s m = _)
    rw [judge_clean ho]
    exact ⟨fun h1 => if_pos (hf.mp h1), fun h1 h2 => (if_neg (mt hf.mpr h1)).trans (if_pos (hp.mp h2)),
      fun h1 h2 => (if_neg (mt hf.mpr h1)).trans (if_neg (mt hp.mpr h2))⟩

/-! ### An arrival in every state of its reference (R62 to R65, R69) -/

theorem faultOf (r : Ref) (o : Option Ref) :
    ((some r).isSome && some r == o) = decide (o = some r) := by
  rw [Bool.eq_iff_iff, decide_eq_true_eq, eq_comm (a := o)]
  simp

/-- Settles O32. -/
theorem arrivalsMoveTheReference : Obligations.ArrivalsMoveTheReference := by
  intro s m rest e h he hd hsel
  subst he
  obtain ⟨hlast, harr, -⟩ := takeArrival_records h hd
  have hns : ∀ x, s.qsu.refs[m.ref].state = x → x ≠ .qualified → s.qsu.selected ≠ some m.ref :=
    fun x hx hq hc => hq (hx.symm.trans (hsel hc))
  refine ⟨takeArrival m.ref s, lastOf m (judge s m), rfl, hlast, fun hs hj hc => ?_, fun hs hj hc => ?_,
    fun c hs hj => ?_, fun hs hj => ?_, fun c hs hj hc => ?_, fun c hs hj hc => ?_, fun hs hc => ?_,
    fun back hs hc hback => ?_, harr, takeArrival_frame m.ref s⟩
  · have hm : moved m rest s = _ := (congrArg (advanceRef m.ref · _) hj).trans (advanceRef_counts hs hc)
    rw [takeArrival_kept h hd hm, if_neg (hns _ hs nofun)]
    exact ⟨rfl, by rw [List.append_nil]; rfl, rfl⟩
  · have hm : moved m rest s = _ := (congrArg (advanceRef m.ref · _) hj).trans (advanceRef_qualifies hs hc)
    rw [takeArrival_quiet h hd fun hc => absurd hc (hns _ hs nofun), hm]
    refine ⟨(review_refs ..).1, ?_, review_xu ..⟩
    exact reviewRuns_review none rfl (by rw [(review_refs ..).1]; rfl) rfl rfl rfl rfl rfl rfl rfl rfl
  · have hm : moved m rest s = _ := (congrArg (advanceRef m.ref · _) hj).trans (advanceRef_failsQualifying hs)
    rw [takeArrival_kept h hd hm, if_neg (hns _ hs nofun)]
    exact ⟨rfl, by rw [List.append_nil]; rfl, rfl⟩
  · have hm : moved m rest s = _ := (congrArg (advanceRef m.ref · _) hj).trans (advanceRef_stays hs)
    have hnote : noticeOf m (judge s m) = _ := congrArg (noticeOf m) hj
    rw [takeArrival_kept h hd hm, hnote]
    exact ⟨rfl, rfl, rfl⟩
  · have hm : moved m rest s = _ := (congrArg (advanceRef m.ref · _) hj).trans (advanceRef_bad hs hc)
    have hnote : noticeOf m (judge s m) = _ := congrArg (noticeOf m) hj
    rw [takeArrival_kept h hd hm, hnote]
    exact ⟨rfl, rfl, rfl⟩
  · have hm : moved m rest s = _ := (congrArg (advanceRef m.ref · _) hj).trans (advanceRef_fails hs hc)
    have hleft : (moved m rest s).qsu.selected ≠ some m.ref := by
      rw [hm]
      exact review_unselects _ (by rw [withEntry_entry]; nofun)
    rw [takeArrival_quiet h hd fun _ => hleft]
    refine ⟨by rw [hm]; exact (review_refs ..).1, hleft, ?_, by rw [hm]; exact review_xu ..⟩
    rw [hm]
    exact reviewRuns_review (some m.ref) rfl (by rw [(review_refs ..).1]; rfl) (faultOf ..) rfl rfl rfl rfl rfl
      rfl rfl
  · have hm : moved m rest s = _ := advanceRef_dwells hs hc
    rw [takeArrival_kept h hd hm, if_neg (hns _ hs nofun)]
    exact ⟨rfl, by rw [List.append_nil]; rfl, rfl⟩
  · have hback' : back ↔ judge s m = none ∧ s.qsu.refs[m.ref].declaredValid = true
        ∧ lineDown m.ref s.qsu = false := by
      rw [hback, lineDown_eq_false]
      rfl
    by_cases hb : back
    · obtain ⟨hj, hv, hl⟩ := hback'.mp hb
      have hm : moved m rest s = _ := advanceRef_returns hs hc hj hv hl
      rw [takeArrival_kept h hd hm, if_neg (hns _ hs nofun)]
      exact ⟨rfl, fun _ => ⟨rfl, by rw [List.append_nil]; rfl⟩, fun hn => absurd hb hn⟩
    · have hm : moved m rest s = _ := advanceRef_remains hs hc (mt hback'.mpr hb)
      rw [takeArrival_kept h hd hm, if_neg (hns _ hs nofun)]
      exact ⟨rfl, fun hy => absurd hy hb, fun _ => ⟨rfl, by rw [List.append_nil]; rfl⟩⟩

/-! ### Faults from outside (R66 to R68) -/

theorem takeVerdict_eq {s : State} {r : Ref} {rest : List Ref} (h : s.wires.verdicts = r :: rest) :
    takeVerdict s = if s.qsu.refs[r].state = .qualified
      then enterState r .faulted (some .jump) (s.setWires { s.wires with verdicts := rest })
      else s.setWires { s.wires with verdicts := rest } := by
  simp only [takeVerdict, h]
  rfl

/-- A state is its own with an entry of the reference table put where it stands. -/
theorem withEntry_self (r : Ref) (s : State) : withEntry r s.qsu.refs[r] s.wires s = s := by
  have h : s.qsu.refs.set r s.qsu.refs[r] = s.qsu.refs := Vector.set_getElem_self ..
  unfold withEntry
  rw [h]

theorem verdictFaults {s : State} {r : Ref} {rest : List Ref} (h : s.wires.verdicts = r :: rest)
    (hq : s.qsu.refs[r].state = .qualified) : takeVerdict s
      = review (some r) (withEntry r (enterEntry .faulted (some .jump) s.qsu.refs[r])
        { s.wires with verdicts := rest, conds := s.wires.conds ++ [⟨codeRefFault r, true⟩] } s) := by
  rw [takeVerdict_eq h, if_pos hq, ← withEntry_self r (s.setWires { s.wires with verdicts := rest })]
  exact enterState_faults hq _

/-- A fault that may meet a reference in any state but DISABLED (R62, R66, R67). -/
theorem enterState_faulted_apart {s : State} {r : Ref} {e : RefEntry} {w : Wires} (c : Option Cause)
    (h : e.state ≠ .qualified) : enterState r .faulted c (withEntry r e w s)
      = withEntry r (enterEntry .faulted c e)
        { w with conds := w.conds ++ handed (codeRefFault r) (decide (e.state = .faulted)) true } s := by
  rw [enterState_apart (st := .faulted) _ (by simp [h]), setRefState_withEntry]
  rfl

/-- The QSU has taken the loss of a LINE-x-OK (R67). -/
def lineLost (l : LineId) (s : State) : State :=
  s.setQsu { s.qsu with lineOk := s.qsu.lineOk.set l false }

theorem lineLoss_disabled {s : State} {l : LineId} (hl : s.qsu.lineOk[l] = true)
    (hd : s.qsu.refs[lineRef l].state = .disabled) : takeLineChangeQsu l false s = lineLost l s := by
  unfold takeLineChangeQsu
  rw [if_neg (by rw [hl]; nofun)]
  exact if_pos (by rw [State.setQsu_qsu, hd]; rfl)

theorem lineLoss_enabled {s : State} {l : LineId} (hl : s.qsu.lineOk[l] = true)
    (hd : s.qsu.refs[lineRef l].state ≠ .disabled) : takeLineChangeQsu l false s
      = enterState (lineRef l) .faulted (some .loss)
        (withEntry (lineRef l) s.qsu.refs[lineRef l] s.wires (lineLost l s)) := by
  have hself : withEntry (lineRef l) s.qsu.refs[lineRef l] s.wires (lineLost l s) = lineLost l s :=
    withEntry_self (lineRef l) (lineLost l s)
  rw [hself]
  unfold takeLineChangeQsu
  rw [if_neg (by rw [hl]; nofun)]
  exact if_neg (by rw [State.setQsu_qsu, Bool.false_or, beq_iff_eq]; exact hd)

/-- Settles O33. -/
theorem outsideFaults : Obligations.OutsideFaults := by
  refine ⟨fun s r rest h => ?_, fun s l => ⟨fun hl => ?_, fun hl => ?_, ?_⟩⟩
  · refine ⟨takeVerdict s, rfl, ?_, fun hq => ?_, fun hq => ?_, takeVerdict_frame s⟩
    · by_cases hq : s.qsu.refs[r].state = .qualified
      · rw [verdictFaults h hq, review_wires]; rfl
      · rw [takeVerdict_eq h, if_neg hq]; rfl
    · rw [verdictFaults h hq]
      refine ⟨(review_refs ..).1, review_unselects _ (by rw [withEntry_entry]; nofun), ?_, review_xu ..⟩
      exact reviewRuns_review (some r) rfl (by rw [(review_refs ..).1]; rfl) (faultOf ..) rfl rfl rfl rfl rfl
        rfl rfl
    · rw [takeVerdict_eq h, if_neg hq]
      exact ⟨rfl, rfl, rfl⟩
  · by_cases hd : s.qsu.refs[lineRef l].state = .disabled
    · refine ⟨_, congrArg Host.Outcome.next (lineLoss_disabled hl hd), rfl, fun hn => absurd hd hn,
        fun _ => ⟨rfl, rfl, rfl⟩, (setQsu_frame ..).mono (by decide)⟩
    by_cases hq : s.qsu.refs[lineRef l].state = .qualified
    · refine ⟨takeLineChangeQsu l false s, rfl, ?_, fun _ => ?_, fun hn => absurd hn hd,
        takeLineChangeQsu_frame ..⟩
      · rw [lineLoss_enabled hl hd, enterState_faults hq, (review_refs ..).2.2.2.2]
        rfl
      · rw [lineLoss_enabled hl hd, enterState_faults hq]
        refine ⟨(review_refs ..).1, fun _ => review_unselects _ (by rw [withEntry_entry]; nofun),
          fun _ => ⟨?_, review_xu ..⟩, fun hn => absurd hq hn⟩
        exact reviewRuns_review _ rfl (by rw [(review_refs ..).1, (review_refs ..).2.2.2.2]; rfl) (faultOf ..)
          rfl rfl rfl rfl rfl rfl rfl
    · have ht := (lineLoss_enabled hl hd).trans (enterState_faulted_apart _ hq)
      refine ⟨_, congrArg Host.Outcome.next ht, rfl, fun _ => ⟨rfl, fun hs hc => hq (hs hc),
        fun hn => absurd hn hq, fun _ => ⟨rfl, rfl, rfl⟩⟩, fun hn => absurd hn hd, ?_⟩
      rw [← ht]
      exact takeLineChangeQsu_frame ..
  · refine congrArg Host.Outcome.next ?_
    unfold takeLineChangeQsu
    rw [if_neg (by rw [hl]; nofun)]
    rfl
  · exact congrArg Host.Outcome.next (if_pos rfl)

/-! ### Requests that run the review (R59, R66, R74, R75) -/

theorem asIndex_eq_some {n : Nat} {w : Word} {i : Fin n} (h : w.toNat = i.val) : asIndex n w = some i := by
  have hi : w.toNat < n := by rw [h]; exact i.isLt
  exact (dif_pos hi).trans (congrArg some (Fin.ext h))

theorem asIndex_eq_none {n : Nat} {w : Word} (h : n ≤ w.toNat) : asIndex n w = none :=
  dif_neg (Nat.not_lt.mpr h)

theorem toNat_ofRef {w : Word} {r : Ref} (h : w = BitVec.ofNat 16 r.val) : w.toNat = r.val := by
  have hr := r.isLt
  rw [h, BitVec.toNat_ofNat]
  omega

theorem flag_eq_some {p : Params} {i : Nat} {v : Bool} (h : Params.w p i = if v then 1 else 0) :
    p.flag i = some v := by
  unfold Params.flag
  rw [h]
  cases v <;> rfl

theorem flag_eq_none {p : Params} {i : Nat} (h : 1 < (Params.w p i).toNat) : p.flag i = none := by
  unfold Params.flag
  rw [if_neg fun h0 => by rw [h0] at h; exact absurd h (by decide),
    if_neg fun h1 => by rw [h1] at h; exact absurd h (by decide)]

/-- A request that runs the review and completes: `u` is the state with the request's change made and the
unit emptied (R59, R71, R74, R75). -/
theorem review_completes {s u : State} {n : Slot} {kind : Nat} {w : Wires} {q : Qsu} {fault : Bool}
    (k : Completion) (h : Held n kind s) (f : Option Ref) (hx : u.xu = (handEmptied s).xu)
    (hl : u.tsu.label = s.tsu.label) (hr : ReviewRuns w q fault s (review f u)) :
    ReviewRuns w q fault s (completeNow n k (review f u))
      ∧ CompletesHeld n k.code s.tsu.label s (completeNow n k (review f u)) := by
  have hrx := review_xu f u
  have ht : (review f u).xu.slots[n].state = .taken := by rw [hrx, hx]; exact h.2.1
  refine ⟨reviewRuns_completeNow hr k ht h.2.1, completesHeld_after k h ?_ hr.2.1.1 (by rw [review_tsu, hl])⟩
  rw [hrx, hx]
  rfl

theorem exec_review_completes {s u : State} {n : Slot} {kind : Nat} (q : Qsu) (h : Held n kind s)
    (hu : u = (handEmptied s).setQsu q) (hs : q.selected = s.qsu.selected) :
    ReviewRuns s.wires q false s (completeNow n .ok (review none u))
      ∧ CompletesHeld n 1 s.tsu.label s (completeNow n .ok (review none u)) := by
  subst hu
  refine review_completes .ok h none rfl rfl ?_
  exact reviewRuns_review none rfl rfl rfl rfl hs rfl rfl rfl rfl rfl

/-- A request turned away with a completion and nothing else (R170, R171). -/
theorem exec_turnsAway {n : Slot} {kind : Nat} {s u : State} (k : Completion) (h : Held n kind s)
    (hu : u = completeNow n k (handEmptied s)) : ∃ t, (.next u : Host.Outcome State Fault Refusal) = .next t
      ∧ CompletesHeld n k.code s.tsu.label s t ∧ KeepsAllBut [.xu] s t := by
  subst hu
  exact ⟨_, rfl, completeNow_held k h, (handEmptied_frame s).trans (completeNow_frame ..)⟩

/-- SET-PRIORITY (R59). -/
theorem setPriority_runs (s : State) (n : Slot) (p : Vector Word 24) (hh : Held n 2 s)
    (hp : p = s.xu.slots[n].params) : (∀ r : Ref, Params.w p 0 = BitVec.ofNat 16 r.val →
      Params.n1 p 1 ≤ 15 → ∃ t, exec .setPriority s = .next t
      ∧ t.qsu.refs = s.qsu.refs.set r
          { s.qsu.refs[r] with cfg := { s.qsu.refs[r].cfg with priority := Params.n1 p 1 } }
      ∧ ReviewRuns s.wires { s.qsu with refs := t.qsu.refs } false s t
      ∧ CompletesHeld n 1 s.tsu.label s t ∧ KeepsAllBut [.qsu, .xu, .wires] s t)
    ∧ (8 ≤ (Params.w p 0).toNat ∨ 15 < Params.n1 p 1 → ∃ t, exec .setPriority s = .next t
      ∧ CompletesHeld n 5 s.tsu.label s t ∧ KeepsAllBut [.xu] s t) := by
  have ht := takeRequest_held takeSetPriority hh
  rw [← hp] at ht
  refine ⟨fun r hr hv => ?_, fun hbad => exec_turnsAway .invalid hh (ht.trans ?_)⟩
  · have hi : asIndex 8 (Params.w p 0) = some r := asIndex_eq_some (toNat_ofRef hr)
    have hv' : inRange 0 15 (Params.n1 p 1) = some (Params.n1 p 1) :=
      inRange_eq_some.mpr ⟨Nat.zero_le _, hv, rfl⟩
    simp only [takeSetPriority, hi, hv'] at ht
    obtain ⟨hrun, hdone⟩ := exec_review_completes (withEntry r { s.qsu.refs[r] with
      cfg := { s.qsu.refs[r].cfg with priority := Params.n1 p 1 } } s.wires s).qsu hh rfl rfl
    refine ⟨_, congrArg Host.Outcome.next ht, ?_, ?_, hdone, ?_⟩
    · rw [completeNow_qsu, (review_refs ..).1]; rfl
    · rw [completeNow_qsu, (review_refs ..).1]; exact hrun
    · rw [← ht]
      exact takeRequest_frame s (by decide) takeSetPriority_frame
  · obtain hi | hv := hbad
    · have hi' : asIndex 8 (Params.w p 0) = none := asIndex_eq_none hi
      simp only [takeSetPriority, hi']
      rfl
    · have hv' : inRange 0 15 (Params.n1 p 1) = none := if_neg (by omega)
      rcases hi : asIndex 8 (Params.w p 0) with _ | r <;> simp only [takeSetPriority, hi, hv'] <;> rfl

theorem forcedOf_eq_some {w : Word} (f : Option Ref)
    (h : w = match f with | none => 0xFFFF | some r => BitVec.ofNat 16 r.val) : forcedOf w = some f := by
  rcases f with _ | r
  · exact if_pos h
  · have hw : w.toNat = r.val := toNat_ofRef h
    have hr := r.isLt
    unfold forcedOf
    rw [if_neg fun hx => by rw [hx] at hw; change 0xFFFF = r.val at hw; omega, asIndex_eq_some hw]
    rfl

theorem forcedOf_eq_none {w : Word} (h : 8 ≤ w.toNat ∧ w.toNat < 0xFFFF) : forcedOf w = none := by
  unfold forcedOf
  rw [if_neg fun hx => by rw [hx] at h; exact absurd h.2 (by decide), asIndex_eq_none h.1]
  rfl

/-- SELECT-MODE (R73, R74). -/
theorem selectMode_runs (s : State) (n : Slot) (p : Vector Word 24) (hh : Held n 4 s)
    (hp : p = s.xu.slots[n].params) :
    (∀ (v : Bool) (f : Option Ref), Params.w p 0 = (if v then 1 else 0) →
      Params.w p 1 = (match f with | none => 0xFFFF | some r => BitVec.ofNat 16 r.val) →
      ∃ t, exec .selectMode s = .next t
      ∧ ReviewRuns s.wires { s.qsu with revertive := v, forced := f } false s t
      ∧ CompletesHeld n 1 s.tsu.label s t ∧ KeepsAllBut [.qsu, .xu, .wires] s t)
    ∧ (1 < (Params.w p 0).toNat
        ∨ 8 ≤ (Params.w p 1).toNat ∧ (Params.w p 1).toNat < 0xFFFF →
      ∃ t, exec .selectMode s = .next t
      ∧ CompletesHeld n 5 s.tsu.label s t ∧ KeepsAllBut [.xu] s t) := by
  have ht := takeRequest_held takeSelectMode hh
  rw [← hp] at ht
  refine ⟨fun v f hv hf => ?_, fun hbad => exec_turnsAway .invalid hh (ht.trans ?_)⟩
  · have hv' : Params.flag p 0 = some v := flag_eq_some hv
    have hf' : forcedOf (Params.w p 1) = some f := forcedOf_eq_some f hf
    simp only [takeSelectMode, hv', hf'] at ht
    obtain ⟨hrun, hdone⟩ := exec_review_completes { s.qsu with revertive := v, forced := f } hh rfl rfl
    refine ⟨_, congrArg Host.Outcome.next ht, hrun, hdone, ?_⟩
    rw [← ht]
    exact takeRequest_frame s (by decide) takeSelectMode_frame
  · obtain hv | hf := hbad
    · have hv' : Params.flag p 0 = none := flag_eq_none hv
      simp only [takeSelectMode, hv']
      rfl
    · have hf' : forcedOf (Params.w p 1) = none := forcedOf_eq_none hf
      rcases hv : Params.flag p 0 with _ | v <;> simp only [takeSelectMode, hv, hf'] <;> rfl

theorem setForcedHoldover_same {v : Bool} {s : State} (h : s.qsu.forcedHoldover = v) :
    setForcedHoldover v s = s := if_pos h

theorem setForcedHoldover_changed {v : Bool} {s : State} (h : s.qsu.forcedHoldover ≠ v) :
    setForcedHoldover v s = review none (s.setQsu { s.qsu with forcedHoldover := v }) := if_neg h

theorem takeHoldoverControl_enter {n : Slot} {p : Params} {s : State} (h : p.w 0 = 1)
    (hs : s.lpu.state ≠ .freeRun) :
    takeHoldoverControl n p s = completeNow n .ok (setForcedHoldover true s) :=
  (if_pos h).trans (if_neg hs)

theorem takeHoldoverControl_leave {n : Slot} {p : Params} {s : State} (h : p.w 0 = 2) :
    takeHoldoverControl n p s = completeNow n .ok (setForcedHoldover false s) :=
  (if_neg (by rw [h]; decide)).trans (if_pos h)

/-- HOLDOVER-CONTROL (R75). -/
theorem holdoverControl_runs (s : State) (n : Slot) (p : Vector Word 24) (hh : Held n 5 s)
    (hp : p = s.xu.slots[n].params) : ∃ t, exec .holdoverControl s = .next t
    ∧ (Params.w p 0 = 1 → s.lpu.state ≠ .freeRun → s.qsu.forcedHoldover = false →
        t.qsu.selected = none
        ∧ ReviewRuns s.wires { s.qsu with forcedHoldover := true } false s t
        ∧ CompletesHeld n 1 s.tsu.label s t)
    ∧ (Params.w p 0 = 1 ∧ s.lpu.state ≠ .freeRun ∧ s.qsu.forcedHoldover = true
        ∨ Params.w p 0 = 2 ∧ s.qsu.forcedHoldover = false →
        t.qsu = s.qsu ∧ t.wires = s.wires ∧ CompletesHeld n 1 s.tsu.label s t)
    ∧ (Params.w p 0 = 1 → s.lpu.state = .freeRun →
        t.qsu = s.qsu ∧ t.wires = s.wires ∧ CompletesHeld n 6 s.tsu.label s t)
    ∧ (Params.w p 0 = 2 → s.qsu.forcedHoldover = true →
        ReviewRuns s.wires { s.qsu with forcedHoldover := false } false s t
        ∧ CompletesHeld n 1 s.tsu.label s t)
    ∧ (Params.w p 0 ≠ 1 → Params.w p 0 ≠ 2 →
        t.qsu = s.qsu ∧ t.wires = s.wires ∧ CompletesHeld n 5 s.tsu.label s t)
    ∧ KeepsAllBut [.qsu, .xu, .wires] s t := by
  have ht : takeRequest 5 takeHoldoverControl s = takeHoldoverControl n p (handEmptied s) := by
    rw [hp]
    exact takeRequest_held takeHoldoverControl hh
  refine ⟨_, congrArg Host.Outcome.next ht, fun h1 hs hf => ?_, fun h => ?_, fun h1 hs => ?_,
    fun h2 hf => ?_, fun h1 h2 => ?_, ?_⟩
  · rw [takeHoldoverControl_enter (s := handEmptied s) h1 hs,
      setForcedHoldover_changed (s := handEmptied s) (by rw [handEmptied, State.setXu_qsu, hf]; nofun)]
    obtain ⟨hrun, hdone⟩ := exec_review_completes { s.qsu with forcedHoldover := true } hh rfl rfl
    refine ⟨?_, hrun, hdone⟩
    exact hrun.1.1 (.inr rfl)
  · have hk : takeHoldoverControl n p (handEmptied s)
        = completeNow n .ok (handEmptied s) := by
      obtain ⟨h1, hs, hf⟩ | ⟨h2, hf⟩ := h
      · rw [takeHoldoverControl_enter (s := handEmptied s) h1 hs, setForcedHoldover_same (s := handEmptied s) hf]
      · rw [takeHoldoverControl_leave h2, setForcedHoldover_same (s := handEmptied s) hf]
    rw [hk]
    exact ⟨completeNow_qsu .., completeNow_wires .., completeNow_held .ok hh⟩
  · have hk : takeHoldoverControl n p (handEmptied s)
        = completeNow n .notPermitted (handEmptied s) := (if_pos h1).trans (if_pos hs)
    rw [hk]
    exact ⟨completeNow_qsu .., completeNow_wires .., completeNow_held .notPermitted hh⟩
  · rw [takeHoldoverControl_leave h2,
      setForcedHoldover_changed (s := handEmptied s) (by rw [handEmptied, State.setXu_qsu, hf]; nofun)]
    exact exec_review_completes { s.qsu with forcedHoldover := false } hh rfl rfl
  · have hk : takeHoldoverControl n p (handEmptied s)
        = completeNow n .invalid (handEmptied s) := (if_neg h1).trans (if_neg h2)
    rw [hk]
    exact ⟨completeNow_qsu .., completeNow_wires .., completeNow_held .invalid hh⟩
  · rw [← ht]
    exact takeRequest_frame s (by decide) takeHoldoverControl_frame

/-- Settles O34. -/
theorem selectionRequestsRunTheReview : Obligations.SelectionRequestsRunTheReview :=
  ⟨setPriority_runs, selectMode_runs, holdoverControl_runs⟩

end Sys2Proof.Machine
end

section
/-! PROOFS. DECLARE-REFERENCE and CONFIGURE-REFERENCE (R52, R57, R58, R66). -/

namespace Sys2Proof.Machine

open Sys2Proof.Safety Config

/-! ### The fields of a CONFIGURE-REFERENCE (R57, R185) -/

theorem flag_eq_some_iff {p : Params} {i : Nat} {v : Bool} :
    p.flag i = some v ↔ (Params.w p i).toNat ≤ 1 ∧ v = (Params.w p i == 1) := by
  unfold Params.flag
  by_cases h0 : Params.w p i = 0
  · rw [if_pos h0, h0]
    simp [eq_comm]
  · by_cases h1 : Params.w p i = 1
    · rw [if_neg h0, if_pos h1, h1]
      simp [eq_comm]
    · rw [if_neg h0, if_neg h1]
      refine iff_of_false nofun fun h => ?_
      have hw : (Params.w p i).toNat = 0 ∨ (Params.w p i).toNat = 1 := by omega
      exact hw.elim (fun h => h0 (BitVec.eq_of_toNat_eq h)) fun h => h1 (BitVec.eq_of_toNat_eq h)

theorem inRange_eq_some_iff {lo hi x y : Nat} : inRange lo hi x = some y ↔ y = x ∧ lo ≤ x ∧ x ≤ hi := by
  rw [inRange_eq_some]
  tauto

/-- Every field of a CONFIGURE-REFERENCE for reference `r` is in range (R57). -/
def RefParamsGood (p : Params) (r : Ref) : Prop :=
  (Params.w p 1).toNat ≤ 1 ∧ Params.n1 p 2 ≤ 15
  ∧ (1 ≤ Params.n2 p 10 ∧ Params.n2 p 10 ≤ 100000000)
  ∧ (1 ≤ Params.n1 p 12 ∧ Params.n1 p 12 ≤ 3600) ∧ Params.n1 p 13 ≤ 3600
  ∧ Params.n1 p 14 ≤ 15
  ∧ (refKind r = .pps ∨ refKind r = .pkt → Params.n2 p 5 ≤ 100000000
      ∧ 1000 ≤ Params.n3 p 7 ∧ Params.n3 p 7 ≤ 100000000000)
  ∧ (refKind r = .pps → 125 ≤ Params.n3 p 15 ∧ Params.n3 p 15 ≤ Params.n3 p 18
      ∧ Params.n3 p 18 ≤ 999999999875)
  ∧ (refKind r = .frq → 1 ≤ Params.n2 p 15 ∧ Params.n2 p 15 ≤ 25000000)
  ∧ (refKind r = .line → 8000 ≤ Params.n2 p 15 ∧ Params.n2 p 15 ≤ 156250000)
  ∧ (refKind r = .frq ∨ refKind r = .line →
      1000 ≤ Params.n2 p 17 ∧ Params.n2 p 17 ≤ 100000000)
  ∧ (refKind r = .pkt → (1 ≤ Params.n1 p 15 ∧ Params.n1 p 15 ≤ 16)
      ∧ 1000000 ≤ Params.n3 p 16 ∧ Params.n3 p 16 ≤ 2000000000000)

/-- The configuration a CONFIGURE-REFERENCE names, each field of another kind at its default (R57,
R185). -/
def namedRefConfig (p : Params) (r : Ref) : RefConfig × Bool :=
  let dflt := defaultRefConfig r
  let pps := refKind r == .pps
  let pkt := refKind r == .pkt
  let div := refKind r == .frq || refKind r == .line
  let comp := if pps || pkt then p.i2 3 else 0
  (⟨Params.w p 1 == 1, p.n1 2, clampAbs comp compensationBound,
    if pps || pkt then p.n2 5 else dflt.accuracy, if pps then p.n3 15 else dflt.wMin,
    if pps then p.n3 18 else dflt.wMax, if div then p.n2 15 else dflt.nominal,
    if div then p.n2 17 else dflt.gross, if pkt then p.n1 15 else dflt.span,
    if pkt then p.n3 16 else dflt.delayLimit, if pps || pkt then p.n3 7 else dflt.phaseTol, p.n2 10,
    p.n1 12, p.n1 13, p.n1 14⟩, clampAbs comp compensationBound != comp)

theorem refConfigOf_eq_some {p : Params} {r : Ref} {x : RefConfig × Bool} :
    refConfigOf p r = some x ↔ RefParamsGood p r ∧ x = namedRefConfig p r := by
  have hflag : ∀ v, p.flag 1 = some v ↔ v = (Params.w p 1 == 1) ∧ (Params.w p 1).toNat ≤ 1 :=
    fun v => flag_eq_some_iff.trans and_comm
  rcases hk : refKind r with _ | _ | _ | _ <;>
    simp [refConfigOf, hk, Option.bind_eq_some_iff, inRange_eq_some_iff, hflag, RefParamsGood,
      namedRefConfig, and_assoc, eq_comm (a := x)] <;> grind

theorem clampAbs_eq (x : Int) :
    clampAbs x compensationBound = max (-200000000) (min 200000000 x) := rfl

/-- Settles the fields of O36: when they are in range and what each is. -/
theorem refConfig_fields (p : Vector Word 24) (r : Ref) :
    (refConfigOf p r ≠ none ↔ RefParamsGood p r)
    ∧ ∀ cfg clamped, refConfigOf p r = some (cfg, clamped) →
      (cfg.enabled = true ↔ Params.w p 1 = 1) ∧ cfg.priority = Params.n1 p 2
      ∧ cfg.freqTol = Params.n2 p 10 ∧ cfg.qualifyTime = Params.n1 p 12
      ∧ cfg.dwell = Params.n1 p 13 ∧ cfg.badLimit = Params.n1 p 14
      ∧ (refKind r = .pps ∨ refKind r = .pkt →
          cfg.compensation = max (-200000000) (min 200000000 (Params.i2 p 3))
          ∧ (clamped = true ↔ 200000000 < (Params.i2 p 3).natAbs)
          ∧ cfg.accuracy = Params.n2 p 5 ∧ cfg.phaseTol = Params.n3 p 7)
      ∧ (refKind r = .pps → cfg.wMin = Params.n3 p 15 ∧ cfg.wMax = Params.n3 p 18)
      ∧ (refKind r = .frq ∨ refKind r = .line →
          cfg.nominal = Params.n2 p 15 ∧ cfg.gross = Params.n2 p 17 ∧ clamped = false)
      ∧ (refKind r = .pkt → cfg.span = Params.n1 p 15 ∧ cfg.delayLimit = Params.n3 p 16) := by
  refine ⟨?_, fun cfg clamped h => ?_⟩
  · rw [Option.ne_none_iff_exists']
    exact ⟨fun ⟨_, hx⟩ => (refConfigOf_eq_some.mp hx).1, fun hg => ⟨_, refConfigOf_eq_some.mpr ⟨hg, rfl⟩⟩⟩
  · obtain ⟨-, hx⟩ := refConfigOf_eq_some.mp h
    obtain ⟨rfl, rfl⟩ := Prod.mk.inj hx
    refine ⟨by simp, rfl, rfl, rfl, rfl, rfl, fun hk => ?_, fun hk => ?_, fun hk => ?_, fun hk => ?_⟩
    · have hphase : (refKind r == .pps || refKind r == .pkt) = true := by simp [hk]
      simp only [hphase, if_true]
      exact ⟨clampAbs_eq _, by rw [clampAbs_ne_iff, decide_eq_true_iff], by simp, by simp⟩
    · simp [hk]
    · obtain hk | hk := hk <;> simp [hk] <;> decide
    · simp [hk]

/-! ### The measuring blocks (R27, R28, R52) -/

theorem ref_cases (r : Ref) : (∃ c : PpsChannelId, r = ppsRef c) ∨ (∃ d : DividerId, r = divRef d)
    ∨ ∃ k : PacketId, r = pktRef k := by
  have hr := r.isLt
  by_cases h2 : r.val < 2
  · exact .inl ⟨⟨r.val, h2⟩, rfl⟩
  by_cases h6 : r.val < 6
  · exact .inr (.inl ⟨⟨r.val - 2, by omega⟩, Fin.ext (by change r.val = r.val - 2 + 2; omega)⟩)
  · exact .inr (.inr ⟨⟨r.val - 6, by omega⟩, Fin.ext (by change r.val = r.val - 6 + 6; omega)⟩)

theorem configureMeasuring_pps (c : PpsChannelId) (b : Bool) (s : State) :
    configureMeasuring (ppsRef c) b s = configurePps c b s := dif_pos c.isLt

theorem configureMeasuring_div (d : DividerId) (b : Bool) (s : State) :
    configureMeasuring (divRef d) b s = configureDivider d b s := by
  have hd := d.isLt
  unfold configureMeasuring
  rw [dif_neg (by change ¬d.val + 2 < 2; omega), dif_pos (by change d.val + 2 < 6; omega)]
  rfl

theorem configureMeasuring_pkt (k : PacketId) (b : Bool) (s : State) :
    configureMeasuring (pktRef k) b s = configurePacket k s := by
  unfold configureMeasuring
  rw [dif_neg (by change ¬k.val + 6 < 2; omega), dif_neg (by change ¬k.val + 6 < 6; omega)]
  rfl

/-- The new configuration of a measuring block reaches no reference's entry, and of the timescale the step
log alone. -/
theorem configureMeasuring_rest (r : Ref) (b : Bool) (s : State) :
    (configureMeasuring r b s).tsu = { s.tsu with stepLog := (configureMeasuring r b s).tsu.stepLog } := by
  obtain ⟨c, rfl⟩ | ⟨d, rfl⟩ | ⟨k, rfl⟩ := ref_cases r
  · rw [configureMeasuring_pps]; rfl
  · rw [configureMeasuring_div]; rfl
  · rw [configureMeasuring_pkt]; rfl

theorem configureMeasuring_withEntry (r : Ref) (b : Bool) (e : RefEntry) (s : State) :
    configureMeasuring r b (withEntry r e s.wires s)
      = withEntry r e s.wires (configureMeasuring r b s) := by
  obtain ⟨c, rfl⟩ | ⟨d, rfl⟩ | ⟨k, rfl⟩ := ref_cases r
  · rw [configureMeasuring_pps, configureMeasuring_pps]; rfl
  · rw [configureMeasuring_div, configureMeasuring_div]; rfl
  · rw [configureMeasuring_pkt, configureMeasuring_pkt]; rfl

/-! ### A configuration applied (R58) -/

/-- The entry of a reference as its new configuration starts it (R58, R62). -/
def startedEntry (r : Ref) (cfg : RefConfig) (s : State) : RefEntry :=
  let st := startState r cfg.enabled s
  { enterEntry st.1 st.2 { s.qsu.refs[r] with cfg := cfg } with last := none }

/-- What a change of a reference's state hands of REFERENCE-FAULT (R62). -/
def refFaultHanded (r : Ref) (before after : RefEntry) : List CondChange :=
  handed (codeRefFault r) (decide (before.state = .faulted)) (decide (after.state = .faulted))

theorem startState_congr {r : Ref} {b : Bool} {s t : State}
    (hv : t.qsu.refs[r].declaredValid = s.qsu.refs[r].declaredValid) (hl : t.qsu.lineOk = s.qsu.lineOk) :
    startState r b t = startState r b s := by
  unfold startState lineDown
  rw [hv, hl]

theorem applyRefConfig_eq (r : Ref) (cfg : RefConfig) (s : State) : applyRefConfig r cfg s
    = review none (withEntry r (startedEntry r cfg s)
        { s.wires with conds := s.wires.conds ++ refFaultHanded r s.qsu.refs[r] (startedEntry r cfg s) }
        (configureMeasuring r cfg.enabled s)) := by
  have hfault : ((startState r cfg.enabled s).1 == .faulted)
      = decide ((startedEntry r cfg s).state = .faulted) := by
    rw [startedEntry, (enterEntry_rest ..).1]
    rfl
  have hu := configureMeasuring_withEntry r cfg.enabled { s.qsu.refs[r] with cfg := cfg } s
  have hst := startState_congr (r := r) (b := cfg.enabled) (s := s)
    (t := withEntry r { s.qsu.refs[r] with cfg := cfg } s.wires (configureMeasuring r cfg.enabled s))
    (by rw [withEntry_entry])
    (congrArg Qsu.lineOk ((configureMeasuring_frame r cfg.enabled s).qsu_eq (by decide)) :)
  have happly : ∀ u, configureMeasuring r cfg.enabled (s.updRef r fun e => { e with cfg := cfg }) = u →
      applyRefConfig r cfg s = review none ((setRefState r (startState r cfg.enabled u).1
        (startState r cfg.enabled u).2 u).updRef r fun e => { e with last := none }) := by
    rintro u rfl
    rfl
  rw [happly _ hu, hst, setRefState_withEntry, updRef_withEntry, hfault]
  rfl

theorem startedEntry_cfg (r : Ref) (cfg : RefConfig) (s : State) :
    (startedEntry r cfg s).cfg = cfg
      ∧ (startedEntry r cfg s).declaredValid = s.qsu.refs[r].declaredValid := by
  unfold startedEntry enterEntry
  dsimp only
  split <;> exact ⟨rfl, rfl⟩

theorem startState_ne_qualified (r : Ref) (b : Bool) (s : State) :
    (startState r b s).1 ≠ .qualified := by
  unfold startState
  split
  · nofun
  · split
    · nofun
    · split <;> nofun

/-- A configured reference starts with every count at 0, in no state but DISABLED, FAULTED and QUALIFYING
(R58, R62). -/
theorem startedEntry_state (r : Ref) (cfg : RefConfig) (s : State) :
    (startedEntry r cfg s).state = (startState r cfg.enabled s).1
    ∧ (startedEntry r cfg s).qualifyCount = 0 ∧ (startedEntry r cfg s).badCount = 0
    ∧ (startedEntry r cfg s).dwellCount = 0
    ∧ (startedEntry r cfg s).cause
      = if (startState r cfg.enabled s).1 = .faulted then (startState r cfg.enabled s).2 else none := by
  have h := startState_ne_qualified r cfg.enabled s
  unfold startedEntry
  dsimp only
  rcases hst : (startState r cfg.enabled s).1 with _ | _ | _ | _
  · exact ⟨rfl, rfl, rfl, rfl, rfl⟩
  · exact ⟨rfl, rfl, rfl, rfl, rfl⟩
  · exact absurd hst h
  · exact ⟨rfl, rfl, rfl, rfl, rfl⟩

theorem startState_declared {r : Ref} {s : State} (h : s.qsu.refs[r].declaredValid = false) :
    startState r true s = (.faulted, some .declared) := by
  unfold startState
  rw [h]
  rfl

theorem startState_loss {r : Ref} {s : State} (hv : s.qsu.refs[r].declaredValid = true)
    (h : lineDown r s.qsu = true) : startState r true s = (.faulted, some .loss) := by
  unfold startState
  rw [hv, h]
  rfl

theorem startState_qualifying {r : Ref} {s : State} (hv : s.qsu.refs[r].declaredValid = true)
    (h : lineDown r s.qsu = false) : startState r true s = (.qualifying, none) := by
  unfold startState
  rw [hv, h]
  rfl

theorem logPruned_congr {s t u : State} (h : LogPruned s u) (ht : t.tsu = u.tsu) (hc : t.cap = u.cap)
    (hw : t.wires.divBnd = u.wires.divBnd) : LogPruned s t := by
  unfold LogPruned Needed at h ⊢
  rwa [ht, hc, hw]

/-! ### The request (R57) -/

theorem heldSlot_held {n : Slot} {kind : Nat} {s : State} (h : Held n kind s) :
    heldSlot kind s = some n := by
  obtain ⟨h1, h2, h3⟩ := h
  simp only [heldSlot, h1, h2, h3, and_self, if_true]

theorem configRefWaits_of_index {n : Slot} {s : State} {r : Ref} (h : Held n 1 s)
    (hi : asIndex 8 (Params.w s.xu.slots[n].params 0) = some r) : configRefWaits s
      = ((refConfigOf s.xu.slots[n].params r).any (·.1.enabled) && s.wires.arrivals.any fun m => m.ref == r) := by
  unfold configRefWaits
  simp only [heldSlot_held h]
  rw [hi]

/-- The held CONFIGURE-REFERENCE is taken. -/
theorem exec_configureReference {n : Slot} {s : State} (h : Held n 1 s) (hw : configRefWaits s = false) :
    exec .configureReference s
      = .next (takeConfigureReference n s.xu.slots[n].params (handEmptied s)) :=
  congrArg Host.Outcome.next ((if_neg (by rw [hw]; nofun)).trans (takeRequest_held takeConfigureReference h))

theorem configureReference_invalid {s : State} {n : Slot} {r : Ref} (hh : Held n 1 s)
    (hi : asIndex 8 (Params.w s.xu.slots[n].params 0) = some r)
    (hc : refConfigOf s.xu.slots[n].params r = none) : ∃ t, exec .configureReference s = .next t
      ∧ CompletesHeld n 5 s.tsu.label s t ∧ KeepsAllBut [.xu] s t := by
  rw [exec_configureReference hh (by rw [configRefWaits_of_index hh hi, hc]; rfl)]
  refine exec_turnsAway .invalid hh ?_
  simp only [takeConfigureReference, hi, hc]

theorem configureReference_noIndex {s : State} {n : Slot} (hh : Held n 1 s)
    (hi : 8 ≤ (Params.w s.xu.slots[n].params 0).toNat) : ∃ t, exec .configureReference s = .next t
      ∧ CompletesHeld n 5 s.tsu.label s t ∧ KeepsAllBut [.xu] s t := by
  have hnone : asIndex 8 (Params.w s.xu.slots[n].params 0) = none := asIndex_eq_none hi
  have hw : configRefWaits s = false := by
    unfold configRefWaits
    simp only [heldSlot_held hh]
    rw [hnone]
  rw [exec_configureReference hh hw]
  refine exec_turnsAway .invalid hh ?_
  simp only [takeConfigureReference, hnone]

theorem configureReference_waits {s : State} {n : Slot} {r : Ref} {cfg : RefConfig} {clamped : Bool}
    (hh : Held n 1 s) (hi : asIndex 8 (Params.w s.xu.slots[n].params 0) = some r)
    (hc : refConfigOf s.xu.slots[n].params r = some (cfg, clamped)) (he : cfg.enabled = true)
    (hm : ∃ m ∈ s.wires.arrivals, m.ref = r) : exec .configureReference s = .next s := by
  have hw : configRefWaits s = true := by
    rw [configRefWaits_of_index hh hi, hc]
    simpa [he] using hm
  exact congrArg Host.Outcome.next (if_pos hw)

theorem exec_configureReference_applies {s : State} {n : Slot} {r : Ref} {cfg : RefConfig} {clamped : Bool}
    (hh : Held n 1 s) (hi : asIndex 8 (Params.w s.xu.slots[n].params 0) = some r)
    (hc : refConfigOf s.xu.slots[n].params r = some (cfg, clamped))
    (hm : cfg.enabled = true → ∀ m ∈ s.wires.arrivals, m.ref ≠ r) : exec .configureReference s
      = .next (completeNow n (if clamped then .adjusted else .ok) (applyRefConfig r cfg (handEmptied s))) := by
  have hw : configRefWaits s = false := by
    rw [configRefWaits_of_index hh hi, hc]
    simpa using hm
  rw [exec_configureReference hh hw]
  simp only [takeConfigureReference, hi, hc]

section Applied

variable {s : State} {r : Ref} {cfg : RefConfig}

theorem applyRefConfig_runs (r : Ref) (cfg : RefConfig) (s : State) :
    ReviewRuns
      { s.wires with
        conds := s.wires.conds ++ refFaultHanded r s.qsu.refs[r] (startedEntry r cfg (handEmptied s)) }
      { s.qsu with refs := s.qsu.refs.set r (startedEntry r cfg (handEmptied s)) } false s
      (applyRefConfig r cfg (handEmptied s)) := by
  have hf := configureMeasuring_frame r cfg.enabled (handEmptied s)
  rw [applyRefConfig_eq]
  refine reviewRuns_review none rfl ?_ rfl ?_ rfl rfl ?_ ?_ ?_ ?_
  · rw [withEntry, hf.qsu_eq (by decide)]; rfl
  · unfold inWarmUp
    rw [withEntry, configureMeasuring_rest]
    rfl
  · rw [withEntry, hf.xu_eq (by decide)]; rfl
  · rw [withEntry, hf.xu_eq (by decide)]; rfl
  · rw [withEntry, hf.alu_eq (by decide)]; rfl
  · rw [withEntry, hf.ptu_eq (by decide)]; rfl

/-- The measuring blocks after the request are those its configuration leaves (R27, R28, R52). -/
theorem applyRefConfig_blocks (r : Ref) (cfg : RefConfig) (s : State) :
    (applyRefConfig r cfg s).cap = (configureMeasuring r cfg.enabled s).cap
    ∧ (applyRefConfig r cfg s).tsu = (configureMeasuring r cfg.enabled s).tsu
    ∧ (applyRefConfig r cfg s).pku = (configureMeasuring r cfg.enabled s).pku := by
  rw [applyRefConfig_eq]
  exact ⟨review_cap .., review_tsu .., review_pku ..⟩

theorem applyRefConfig_completes {n : Slot} (k : Completion) (hh : Held n 1 s) :
    ReviewRuns
      { s.wires with
        conds := s.wires.conds ++ refFaultHanded r s.qsu.refs[r] (startedEntry r cfg (handEmptied s)) }
      { s.qsu with refs := s.qsu.refs.set r (startedEntry r cfg (handEmptied s)) } false s
      (completeNow n k (applyRefConfig r cfg (handEmptied s)))
    ∧ CompletesHeld n k.code s.tsu.label s (completeNow n k (applyRefConfig r cfg (handEmptied s))) := by
  have hr := applyRefConfig_runs r cfg s
  have hf := configureMeasuring_frame r cfg.enabled (handEmptied s)
  rw [applyRefConfig_eq] at hr ⊢
  refine review_completes k hh none ?_ ?_ hr
  · exact hf.xu_eq (by decide)
  · rw [withEntry, configureMeasuring_rest]
    rfl

theorem configurePps_cap (c : PpsChannelId) (b : Bool) (s : State) :
    (configurePps c b s).cap = { s.cap with pps := s.cap.pps.set c { s.cap.pps[c] with
      window := (configurePps c b s).cap.pps[c].window
      prev := none } } := by
  simp [configurePps, State.updPps, updAt]

theorem configureDivider_cap (d : DividerId) (b : Bool) (s : State) :
    (configureDivider d b s).cap = { s.cap with div := s.cap.div.set d { s.cap.div[d] with
      state := (configureDivider d b s).cap.div[d].state
      count := 0
      chain := none
      timer := (configureDivider d b s).cap.div[d].timer } } := by
  simp [configureDivider, updDiv_eq]

variable {t : State} {b : Bool}

theorem pps_restarts {c : PpsChannelId} (hcap : t.cap = (configureMeasuring (ppsRef c) b s).cap)
    (htsu : t.tsu = (configureMeasuring (ppsRef c) b s).tsu)
    (hpku : t.pku = (configureMeasuring (ppsRef c) b s).pku) :
    t.cap = { s.cap with pps := s.cap.pps.set c { s.cap.pps[c] with
        window := t.cap.pps[c].window
        prev := none } }
      ∧ t.tsu = s.tsu ∧ t.pku = s.pku ∧ (b = false → t.cap.pps[c].window = .idle)
      ∧ (b = true → s.tsu.hold = none → s.tsu.frac < 500000000000 →
          t.cap.pps[c].window = .waiting s.tsu.second) := by
  rw [configureMeasuring_pps] at hcap htsu hpku
  refine ⟨by rw [hcap]; exact configurePps_cap c b s, htsu, hpku, fun hb => ?_, fun hb hh hf => ?_⟩
  · rw [hcap, hb]
    simp [configurePps, State.updPps, updAt]
  · have hnext : nextHalfPoint s.tsu = s.tsu.second := if_neg (by
      rw [hh]
      simpa [halfPoint] using hf)
    rw [hcap, hb]
    simp [configurePps, State.updPps, updAt, hnext]

theorem div_restarts {d : DividerId} (hcap : t.cap = (configureMeasuring (divRef d) b s).cap)
    (htsu : t.tsu = (configureMeasuring (divRef d) b s).tsu)
    (hpku : t.pku = (configureMeasuring (divRef d) b s).pku) (hw : t.wires.divBnd = s.wires.divBnd) :
    t.cap = { s.cap with div := s.cap.div.set d { s.cap.div[d] with
        state := t.cap.div[d].state
        count := 0
        chain := none
        timer := t.cap.div[d].timer } }
      ∧ LogPruned s t ∧ t.pku = s.pku
      ∧ (∀ l ∈ s.tsu.stepLog, ∀ (y : DividerId) (ch : Chain), y ≠ d →
          s.cap.div[y].chain = some ch → ch.note < l.entry → l ∈ t.tsu.stepLog)
      ∧ (b = true → t.cap.div[d].state = .loading ∧ t.cap.div[d].timer = some 1500000000000)
      ∧ (b = false → t.cap.div[d].state = .idle ∧ t.cap.div[d].timer = none) := by
  rw [configureMeasuring_div] at hcap htsu hpku
  have hset : t.cap = _ := hcap.trans (configureDivider_cap d b s)
  have hlog : LogPruned s t := logPruned_congr (u := configureDivider d b s) (pruneLog_pruned_of rfl) htsu hcap hw
  refine ⟨by rw [hcap]; exact configureDivider_cap d b s, hlog, hpku, fun l hl y ch hy hc hn => ?_,
    fun hb => ?_, fun hb => ?_⟩
  · refine (hlog.2.2 l hl).mpr ⟨y, .inl ⟨ch, ?_, hn⟩⟩
    have hne : d.val ≠ y.val := fun h => hy (Fin.ext h).symm
    rw [hset]
    exact (congrArg Divider.chain (Vector.getElem_set_ne d.isLt y.isLt hne)).trans hc
  · rw [hcap, hb]
    simp [configureDivider, updDiv_eq, missingPeriod]
  · rw [hcap, hb]
    simp [configureDivider, updDiv_eq]

theorem pkt_restarts {k : PacketId} (hcap : t.cap = (configureMeasuring (pktRef k) b s).cap)
    (htsu : t.tsu = (configureMeasuring (pktRef k) b s).tsu)
    (hpku : t.pku = (configureMeasuring (pktRef k) b s).pku) :
    t.pku = { s.pku with refs := s.pku.refs.set k { s.pku.refs[k] with
        window := []
        prev := none } }
      ∧ t.cap = s.cap ∧ t.tsu = s.tsu := by
  rw [configureMeasuring_pkt] at hcap htsu hpku
  exact ⟨hpku, hcap, htsu⟩

end Applied

theorem startedEntry_faulted {s : State} {r : Ref} {cfg : RefConfig} {c : Cause}
    (h : startState r cfg.enabled s = (.faulted, some c)) :
    (startedEntry r cfg s).state = .faulted ∧ (startedEntry r cfg s).cause = some c := by
  obtain ⟨hst, -, -, -, hcause⟩ := startedEntry_state r cfg s
  rw [h] at hst hcause
  exact ⟨hst, hcause⟩

theorem startedEntry_uncaused {s : State} {r : Ref} {cfg : RefConfig} {st : RefState}
    (h : startState r cfg.enabled s = (st, none)) :
    (startedEntry r cfg s).state = st ∧ (startedEntry r cfg s).cause = none := by
  obtain ⟨hst, -, -, -, hcause⟩ := startedEntry_state r cfg s
  rw [h] at hst hcause
  exact ⟨hst, hcause.trans (ite_self _)⟩

theorem applyRefConfig_unselects (r : Ref) (cfg : RefConfig) (s : State) :
    (applyRefConfig r cfg s).qsu.selected ≠ some r := by
  rw [applyRefConfig_eq]
  refine review_unselects none ?_
  rw [withEntry_entry, (startedEntry_state ..).1]
  exact startState_ne_qualified r cfg.enabled s

/-! ### DECLARE-REFERENCE (R66) -/

theorem declareRef_same {r : Ref} {v : Bool} {s : State} (h : s.qsu.refs[r].declaredValid = v) :
    declareRef r v s = s := if_pos h

theorem declareRef_stores {r : Ref} {v : Bool} {s : State} (h : s.qsu.refs[r].declaredValid ≠ v)
    (hq : v = true ∨ s.qsu.refs[r].state = .disabled) :
    declareRef r v s = withEntry r { s.qsu.refs[r] with declaredValid := v } s.wires s := by
  unfold declareRef
  rw [if_neg h]
  refine if_pos ?_
  rw [updRef_eq, withEntry_entry]
  simpa using hq

theorem declareRef_faults {r : Ref} {s : State} (h : s.qsu.refs[r].declaredValid ≠ false)
    (hq : s.qsu.refs[r].state ≠ .disabled) : declareRef r false s
      = enterState r .faulted (some .declared)
        (withEntry r { s.qsu.refs[r] with declaredValid := false } s.wires s) := by
  unfold declareRef
  rw [if_neg h]
  refine if_neg ?_
  rw [updRef_eq, withEntry_entry]
  simpa using hq

theorem declareRef_leaves {r : Ref} {s : State} (h : s.qsu.refs[r].declaredValid ≠ false)
    (hq : s.qsu.refs[r].state = .qualified) : declareRef r false s
      = review (some r) (withEntry r (enterEntry .faulted (some .declared)
        { s.qsu.refs[r] with declaredValid := false })
        { s.wires with conds := s.wires.conds ++ [⟨codeRefFault r, true⟩] } s) :=
  (declareRef_faults h (by rw [hq]; nofun)).trans
    (enterState_faults (e := { s.qsu.refs[r] with declaredValid := false }) hq _)

theorem declareRef_faults_apart {r : Ref} {s : State} (h : s.qsu.refs[r].declaredValid ≠ false)
    (hd : s.qsu.refs[r].state ≠ .disabled) (hq : s.qsu.refs[r].state ≠ .qualified) : declareRef r false s
      = withEntry r (enterEntry .faulted (some .declared) { s.qsu.refs[r] with declaredValid := false })
        { s.wires with
          conds := s.wires.conds ++ handed (codeRefFault r) (decide (s.qsu.refs[r].state = .faulted)) true }
        s :=
  (declareRef_faults h hd).trans
    (enterState_faulted_apart (e := { s.qsu.refs[r] with declaredValid := false }) _ hq)

/-- Work that leaves selection, classes and the unit's hand alone, then the completion. -/
theorem completes_plain {s u : State} {n : Slot} {kind : Nat} (k : Completion) (h : Held n kind s)
    (hx : u.xu = (handEmptied s).xu) (hl : u.tsu.label = s.tsu.label) (ha : u.alu.entries = s.alu.entries)
    (hq : u.qsu.selected = s.qsu.selected) (hp : u.ptu.ports = s.ptu.ports) :
    CompletesHeld n k.code s.tsu.label s (completeNow n k u) :=
  completesHeld_after k h (by rw [hx]; rfl) (attnBumped_none (by rw [hx]; rfl) (by rw [hx]; rfl) ha hq
    fun p => by rw [hp]) hl

section Declare

variable {s : State} {n : Slot} {r : Ref}

/-- The entry of a reference that a declaration has faulted (R62, R66). -/
def declaredFaulty (e : RefEntry) : RefEntry :=
  enterEntry .faulted (some .declared) { e with declaredValid := false }

theorem declare_leaves (hh : Held n 3 s) (hs : s.qsu.refs[r].declaredValid ≠ false)
    (hq : s.qsu.refs[r].state = .qualified) {t : State}
    (ht : t = completeNow n .ok (declareRef r false (handEmptied s))) :
    t.qsu.refs = s.qsu.refs.set r (declaredFaulty s.qsu.refs[r]) ∧ t.qsu.selected ≠ some r
    ∧ ReviewRuns { s.wires with conds := s.wires.conds ++ [⟨codeRefFault r, true⟩] }
        { s.qsu with refs := t.qsu.refs } (decide (s.qsu.selected = some r)) s t
    ∧ CompletesHeld n 1 s.tsu.label s t := by
  rw [declareRef_leaves (s := handEmptied s) hs hq] at ht
  generalize hu : withEntry r (enterEntry .faulted (some .declared)
        { (handEmptied s).qsu.refs[r] with declaredValid := false })
        { (handEmptied s).wires with
          conds := (handEmptied s).wires.conds ++ [⟨codeRefFault r, true⟩] } (handEmptied s) = u at ht
  have hqsu : u.qsu = { s.qsu with refs := s.qsu.refs.set r (declaredFaulty s.qsu.refs[r]) } := by
    rw [← hu]; rfl
  have hwires : u.wires = { s.wires with conds := s.wires.conds ++ [⟨codeRefFault r, true⟩] } := by
    rw [← hu]; rfl
  have hxu : u.xu = (handEmptied s).xu := by rw [← hu]; rfl
  have htsu : u.tsu = s.tsu := by rw [← hu]; rfl
  have hentry : u.qsu.refs[r].state ≠ .qualified := by
    rw [← hu, withEntry_entry, (enterEntry_rest ..).1]
    nofun
  obtain ⟨hrun, hdone⟩ := review_completes .ok hh (some r) hxu (by rw [htsu])
    (reviewRuns_review (some r) hwires hqsu (faultOf ..) (by rw [inWarmUp, inWarmUp, htsu, hwires]) rfl rfl
      (by rw [hxu]; rfl) (by rw [hxu]; rfl) (by rw [← hu]; rfl) (by rw [← hu]; rfl))
  have hrefs : t.qsu.refs = s.qsu.refs.set r (declaredFaulty s.qsu.refs[r]) := by
    rw [ht, completeNow_qsu, (review_refs ..).1, hqsu]
  refine ⟨hrefs, ?_, ?_, ?_⟩
  · rw [ht, completeNow_qsu]
    exact review_unselects _ hentry
  · rw [hrefs, ht]
    exact hrun
  · rw [ht]
    exact hdone

theorem declare_apart (hh : Held n 3 s) (hs : s.qsu.refs[r].declaredValid ≠ false)
    (hd : s.qsu.refs[r].state ≠ .disabled) (hq : s.qsu.refs[r].state ≠ .qualified) {t : State}
    (ht : t = completeNow n .ok (declareRef r false (handEmptied s))) :
    t.qsu = { s.qsu with refs := s.qsu.refs.set r (declaredFaulty s.qsu.refs[r]) }
    ∧ t.wires = { s.wires with
        conds := s.wires.conds ++ handed (codeRefFault r) (decide (s.qsu.refs[r].state = .faulted)) true }
    ∧ CompletesHeld n 1 s.tsu.label s t := by
  rw [declareRef_faults_apart (s := handEmptied s) hs hd hq] at ht
  subst ht
  exact ⟨completeNow_qsu .., completeNow_wires .., completes_plain .ok hh rfl rfl rfl rfl rfl⟩

theorem declare_stores {v : Bool} (hh : Held n 3 s) (hs : s.qsu.refs[r].declaredValid ≠ v)
    (hq : v = true ∨ s.qsu.refs[r].state = .disabled) {t : State}
    (ht : t = completeNow n .ok (declareRef r v (handEmptied s))) :
    t.qsu = { s.qsu with refs := s.qsu.refs.set r { s.qsu.refs[r] with declaredValid := v } }
    ∧ t.wires = s.wires ∧ CompletesHeld n 1 s.tsu.label s t := by
  rw [declareRef_stores (s := handEmptied s) hs hq] at ht
  subst ht
  exact ⟨completeNow_qsu .., completeNow_wires .., completes_plain .ok hh rfl rfl rfl rfl rfl⟩

theorem declare_same {v : Bool} (hh : Held n 3 s) (hs : s.qsu.refs[r].declaredValid = v) {t : State}
    (ht : t = completeNow n .ok (declareRef r v (handEmptied s))) :
    t.qsu = s.qsu ∧ t.wires = s.wires ∧ CompletesHeld n 1 s.tsu.label s t := by
  rw [declareRef_same (s := handEmptied s) hs] at ht
  subst ht
  exact ⟨completeNow_qsu .., completeNow_wires .., completeNow_held .ok hh⟩

end Declare

/-- Settles O35. -/
theorem declareReferenceFaults : Obligations.DeclareReferenceFaults := by
  intro s n p hh hp
  have ht : takeRequest 3 takeDeclareReference s = takeDeclareReference n p (handEmptied s) := by
    rw [hp]
    exact takeRequest_held takeDeclareReference hh
  refine ⟨fun r v hr hv => ?_, fun hbad => exec_turnsAway .invalid hh (ht.trans ?_)⟩
  · have hi : asIndex 8 (Params.w p 0) = some r := asIndex_eq_some (toNat_ofRef hr)
    have hv' : Params.flag p 1 = some v := flag_eq_some hv
    simp only [takeDeclareReference, hi, hv'] at ht
    have hframe : KeepsAllBut [.qsu, .xu, .wires] s (takeRequest 3 takeDeclareReference s) :=
      takeRequest_frame s (by decide) takeDeclareReference_frame
    have hexec : exec .declareReference s = .next (takeRequest 3 takeDeclareReference s) := rfl
    generalize takeRequest 3 takeDeclareReference s = t at ht hframe hexec
    refine ⟨t, hexec, ?_⟩
    by_cases hs : s.qsu.refs[r].declaredValid = v
    · obtain ⟨hqsu, hwires, hdone⟩ := declare_same hh hs ht
      exact ⟨fun _ => ⟨hqsu, hwires⟩, fun hn => absurd hs hn, fun hn => absurd hs hn, hdone, hframe⟩
    by_cases hq : v = true ∨ s.qsu.refs[r].state = .disabled
    · obtain ⟨hqsu, hwires, hdone⟩ := declare_stores hh hs hq ht
      refine ⟨fun h => absurd h hs, fun _ _ => ⟨hqsu, hwires⟩, fun _ hf hd => ?_, hdone, hframe⟩
      exact (hq.elim (fun hv => Bool.noConfusion (hv.symm.trans hf)) hd).elim
    obtain ⟨hvf, hd⟩ := not_or.mp hq
    obtain rfl : v = false := Bool.eq_false_of_not_eq_true hvf
    by_cases hqual : s.qsu.refs[r].state = .qualified
    · obtain ⟨hrefs, hleft, hrun, hdone⟩ := declare_leaves hh hs hqual ht
      exact ⟨fun h => absurd h hs, fun _ h => absurd h hq, fun _ _ _ => ⟨hrefs, fun _ => ⟨hleft, hrun⟩,
        fun hn => absurd hqual hn⟩, hdone, hframe⟩
    · obtain ⟨hqsu, hwires, hdone⟩ := declare_apart hh hs hd hqual ht
      exact ⟨fun h => absurd h hs, fun _ h => absurd h hq, fun _ _ _ => ⟨by rw [hqsu]; rfl,
        fun h => absurd h hqual, fun _ => ⟨by rw [hqsu], hwires⟩⟩, hdone, hframe⟩
  · obtain hi | hv := hbad
    · have hi' : asIndex 8 (Params.w p 0) = none := asIndex_eq_none hi
      simp only [takeDeclareReference, hi']
    · have hv' : Params.flag p 1 = none := flag_eq_none hv
      rcases hi : asIndex 8 (Params.w p 0) with _ | r <;> simp only [takeDeclareReference, hi, hv']

/-- Settles O36. -/
theorem configureReferenceRestarts : Obligations.ConfigureReferenceRestarts := by
  refine ⟨refConfig_fields, fun s n p r hh hp hr => ?_, fun s n hh hi => configureReference_noIndex hh hi⟩
  subst hp
  have hi : asIndex 8 (Params.w s.xu.slots[n].params 0) = some r := asIndex_eq_some (toNat_ofRef hr)
  refine ⟨configureReference_invalid hh hi, fun cfg clamped hc he hm => configureReference_waits hh hi hc he hm,
    fun cfg clamped hc hm => ?_⟩
  have hexec := exec_configureReference_applies hh hi hc hm
  obtain ⟨hcap, htsu, hpku⟩ := applyRefConfig_blocks r cfg (handEmptied s)
  rw [← completeNow_cap _ n (if clamped then .adjusted else .ok)] at hcap
  rw [← completeNow_tsu _ n (if clamped then .adjusted else .ok)] at htsu
  rw [← completeNow_pku _ n (if clamped then .adjusted else .ok)] at hpku
  obtain ⟨⟨hrev, htold, hforce, hqsu, hwires⟩, hdone⟩ :=
    applyRefConfig_completes (r := r) (cfg := cfg) (if clamped then .adjusted else .ok) hh
  have hframe : KeepsAllBut [.tsu, .cap, .pku, .qsu, .xu, .wires] s
      (completeNow n (if clamped then .adjusted else .ok) (applyRefConfig r cfg (handEmptied s))) :=
    (((handEmptied_frame s).mono (by decide)).trans (applyRefConfig_frame ..)).trans
      ((completeNow_frame ..).mono (by decide))
  have hleft := applyRefConfig_unselects r cfg (handEmptied s)
  rw [← completeNow_qsu _ n (if clamped then .adjusted else .ok)] at hleft
  generalize completeNow n (if clamped then .adjusted else .ok) (applyRefConfig r cfg (handEmptied s)) = t
    at hexec hcap htsu hpku hrev htold hforce hqsu hwires hdone hframe hleft
  have hrefs : t.qsu.refs = s.qsu.refs.set r (startedEntry r cfg (handEmptied s)) := by rw [hqsu]
  have hx : startedEntry r cfg (handEmptied s) = t.qsu.refs[r] := by rw [hrefs]; simp
  obtain ⟨hstate, hq0, hb0, hd0, hcause⟩ := startedEntry_state r cfg (handEmptied s)
  obtain ⟨hcfg, hvalid⟩ := startedEntry_cfg r cfg (handEmptied s)
  refine ⟨t, startedEntry r cfg (handEmptied s), hexec, hx, hcfg, hvalid, rfl, hq0, hb0, hd0, fun he => ?_,
    fun he hv => ?_, fun he hv hl => ?_, fun he hv hl => ?_, fun y hy => ?_, ?_, ?_, htold, hforce, ?_, ?_, ?_,
    ?_, ?_, ?_, ?_⟩
  · exact startedEntry_uncaused (by rw [he]; rfl)
  · exact startedEntry_faulted (by rw [he]; exact startState_declared hv)
  · exact startedEntry_faulted (by rw [he]; exact startState_loss hv ((lineDown_iff ..).mpr hl))
  · exact startedEntry_uncaused (by rw [he]; exact startState_qualifying hv ((lineDown_eq_false ..).mpr hl))
  · have hne : r.val ≠ y.val := fun h => hy (Fin.ext h).symm
    rw [hrefs]
    exact Vector.getElem_set_ne _ _ hne
  · exact hleft
  · rw [hrefs]; exact hrev
  · rw [hrefs]; exact hqsu
  · exact hwires
  · rintro c rfl
    exact pps_restarts (s := handEmptied s) hcap htsu hpku
  · rintro d rfl
    exact div_restarts (s := handEmptied s) hcap htsu hpku (by rw [hwires]; rfl)
  · rintro k rfl
    exact pkt_restarts (s := handEmptied s) hcap htsu hpku
  · cases clamped <;> exact hdone
  · exact hframe

end Sys2Proof.Machine
end

section
/-! PROOFS. The steering loop: selection changes, measurements by state, notices, boundaries and its
configuration. -/

namespace Sys2Proof.Machine

open Sys2Proof.Safety Config

/-! ### Selection changes (R79, R80, R82, R83) -/

/-- Settles O37. -/
theorem selectionChangeSetsTheLoop : Obligations.SelectionChangeSetsTheLoop := by
  intro s prev new fault rest after i h hnone hphase hassist hi hi'
  have hafter : loopStateFor new = after := by
    rcases new with _ | r
    · exact (hnone rfl).symm
    · rcases hk : refKind r with _ | _ | _ | _
      · rw [hphase r rfl (.inl hk), loopStateFor, hk]
      · rw [hassist r rfl (.inl hk), loopStateFor, hk]
      · rw [hassist r rfl (.inr hk), loopStateFor, hk]
      · rw [hphase r rfl (.inr hk), loopStateFor, hk]
  have hkind : new = none ∧ after = .holdover ∨ new ≠ none ∧ (after = .acquire ∨ after = .assisted) := by
    rcases new with _ | r
    · exact .inl ⟨rfl, hnone rfl⟩
    · rcases hk : refKind r with _ | _ | _ | _
      · exact .inr ⟨nofun, .inl (hphase r rfl (.inl hk))⟩
      · exact .inr ⟨nofun, .inr (hassist r rfl (.inl hk))⟩
      · exact .inr ⟨nofun, .inr (hassist r rfl (.inr hk))⟩
      · exact .inr ⟨nofun, .inl (hphase r rfl (.inr hk))⟩
  have hhold : (after == .holdover) = decide (new = none) := by
    obtain ⟨hn, ha⟩ | ⟨hn, ha | ha⟩ := hkind <;> rw [ha] <;> simp [hn]
  have hint : integralAt s.lpu.state after s.tsu.freq s.lpu.integral = i := by
    have hiff : (after = .acquire ∨ after = .assisted) ↔ new ≠ none := by
      obtain ⟨hn, ha⟩ | ⟨hn, ha⟩ := hkind
      · rw [ha]; simp [hn]
      · exact iff_of_true ha hn
    rw [← hiff] at hi hi'
    by_cases hc : (s.lpu.state = .freeRun ∨ s.lpu.state = .holdover) ∧ (after = .acquire ∨ after = .assisted)
    · exact (if_pos hc).trans (hi hc).symm
    · exact (if_neg hc).trans (hi' hc).symm
  have hfree : handed codeFreeRunning s.lpu.freeRunning false
      = if s.lpu.freeRunning = true then [⟨10, false⟩] else [] := by
    cases s.lpu.freeRunning <;> rfl
  have ht : takeLoopSelection s
      = changeLoopSelection new fault (s.setWires { s.wires with loopIn := rest }) := by
    simp only [takeLoopSelection, h]
  refine congrArg Host.Outcome.next (ht.trans ?_)
  unfold changeLoopSelection
  dsimp only
  simp only [handIfChanged_eq, State.setWires_lpu, State.setWires_tsu, hafter, hint, hhold, hfree]
  cases fault
  · simp only [Bool.false_eq_true, if_false, List.append_nil]
    rfl
  · simp only [if_true]
    rfl

/-! ### A measurement that the loop takes (R84) -/

/-- The state as the loop finds a measurement forwarded with a phase (R84). -/
def heard (e : Int) (rest : List LoopEvent) (s : State) : State :=
  { s with
    lpu := { s.lpu with lastE := some e }
    wires := { s.wires with loopIn := rest } }

section Taken

variable {s : State} {r : Ref} {l : Label} {δ : Option Int} {sp : Option Nat} {nc : Bool}
  {rest : List LoopEvent}

theorem noticeApplies_iff (r : Ref) (l : Lpu) : noticeApplies r l = true ↔
    l.followed = some r ∧ l.state ≠ .freeRun ∧ l.state ≠ .holdover ∧ l.stepPending = false := by
  simp [noticeApplies, and_assoc]

theorem takeForwarded_applies {e : Option Int} (h : s.wires.loopIn = .forwarded r l e δ sp nc :: rest)
    (hn : noticeApplies r s.lpu = true) : takeForwarded s
      = takeMeasurement e δ nc (s.setWires { s.wires with loopIn := rest }) := by
  simp only [takeForwarded, h]
  exact if_pos hn

theorem takeForwarded_acquire {e : Int} (h : s.wires.loopIn = .forwarded r l (some e) δ sp nc :: rest)
    (hf : s.lpu.followed = some r) (hs : s.lpu.state = .acquire) (hp : s.lpu.stepPending = false) :
    takeForwarded s = measureAcquire e (heard e rest s) := by
  rw [takeForwarded_applies h ((noticeApplies_iff ..).mpr ⟨hf, by rw [hs]; nofun, by rw [hs]; nofun, hp⟩)]
  unfold takeMeasurement
  rw [State.setWires_lpu, hs]
  rfl

theorem takeForwarded_track {e : Int} (h : s.wires.loopIn = .forwarded r l (some e) δ sp nc :: rest)
    (hf : s.lpu.followed = some r) (hs : s.lpu.state = .track) (hp : s.lpu.stepPending = false) :
    takeForwarded s = measureTrack e (heard e rest s) := by
  rw [takeForwarded_applies h ((noticeApplies_iff ..).mpr ⟨hf, by rw [hs]; nofun, by rw [hs]; nofun, hp⟩)]
  unfold takeMeasurement
  rw [State.setWires_lpu, hs]
  rfl

theorem takeForwarded_assisted {e : Option Int} (h : s.wires.loopIn = .forwarded r l e δ sp nc :: rest)
    (hf : s.lpu.followed = some r) (hs : s.lpu.state = .assisted) (hp : s.lpu.stepPending = false) :
    takeForwarded s = measureAssisted δ nc (s.setWires { s.wires with loopIn := rest }) := by
  rw [takeForwarded_applies h ((noticeApplies_iff ..).mpr ⟨hf, by rw [hs]; nofun, by rw [hs]; nofun, hp⟩)]
  unfold takeMeasurement
  rw [State.setWires_lpu, hs]

end Taken

/-! ### The computation and what follows it (R90, R91, R97) -/

/-- A computation with the figures of R90 written out: P, I and F as `p`, `i` and `f`. -/
theorem compute_figures {s : State} {x p i f : Int} {a b : Nat} (hsh : shiftsOf s.lpu = (a, b))
    (hp : p = roundDiv x (2 ^ a))
    (hi : i = clampAbs (s.lpu.integral + roundDiv x (2 ^ b)) s.lpu.cfg.fLimit)
    (hf : f = clampAbs (p + i) s.lpu.cfg.fLimit) : compute x s = { s with
      tsu := { s.tsu with freq := f }
      lpu := { s.lpu with
        integral := i
        lastX := some x
        lastP := some p
        freqLimit := decide (f ≠ p + i) }
      wires := { s.wires with conds := s.wires.conds ++ handed 11 s.lpu.freqLimit (decide (f ≠ p + i)) } } := by
  have hp' : computedP x s = p := by rw [computedP, hsh, hp]; rfl
  have hi' : computedI x s = i := by rw [computedI, hsh, hi]; rfl
  have hf' : computedF x s = f := by rw [computedF, hp', hi', hf]
  have hb : (f != p + i) = decide (f ≠ p + i) := by
    rw [Bool.eq_iff_iff, bne_iff_ne, decide_eq_true_iff]
  rw [compute_eq, hp', hi', hf', hb]

theorem uncertaintyOf_followed {s : State} {r : Ref} (h : s.lpu.followed = some r) (e : Int) :
    uncertaintyOf e s = min 999999999999 (e.natAbs + s.qsu.refs[r].cfg.accuracy) := by
  simp only [uncertaintyOf, followedAccuracy, h]

theorem shiftsOf_acquire {l : Lpu} (h : l.state = .acquire) : shiftsOf l = (l.cfg.acqP, l.cfg.acqI) := if_pos h

theorem shiftsOf_other {l : Lpu} (h : l.state ≠ .acquire) : shiftsOf l = (l.cfg.trackP, l.cfg.trackI) :=
  if_neg h

/-- One bump beside states that R172 counts alike. -/
theorem bump_changes {s u : State} (c : AttnClass) (hx : u.xu = s.xu) (ha : u.alu.entries = s.alu.entries)
    (hq : u.qsu.selected = s.qsu.selected) (hp : u.ptu.ports = s.ptu.ports) :
    ChangesXu s.xu.slots s.xu.unit [c] s (bump c u)
      ∧ (bump c u).xu.attn[c] = { s.xu.attn[c] with pending := true, count := s.xu.attn[c].count + 1 } := by
  refine ⟨⟨?_, attnBumped_bump c (attnBumped_none (by rw [hx]) (by rw [hx]) ha hq fun p => by rw [hp])⟩, ?_⟩
  · rw [← hx]; rfl
  · rw [bump_attn, if_pos rfl, hx]

/-! ### ACQUIRE (R85, R86, R92) -/

section Acquire

variable {s : State} {r : Ref} {e x p i f : Int} {n : Nat} {rest : List LoopEvent}

/-- The loop in ACQUIRE once it has steered by `x` and counted toward lock. -/
def acquireSteered (e x p i f : Int) (n : Nat) (r : Ref) (rest : List LoopEvent) (s : State) : State :=
  { s with
    tsu := { s.tsu with freq := f }
    lpu := { s.lpu with
      integral := i
      lockCount := n
      lastE := some e
      lastX := some x
      lastP := some p
      freqLimit := decide (f ≠ p + i) }
    wires := { s.wires with
      loopIn := rest
      houIn := s.wires.houIn ++ [.uncertainty (min 999999999999 (e.natAbs + s.qsu.refs[r].cfg.accuracy))]
      conds := s.wires.conds ++ handed 11 s.lpu.freqLimit (decide (f ≠ p + i)) } }

theorem measureAcquire_steers (hf : s.lpu.followed = some r) (hs : s.lpu.state = .acquire)
    (hg : gateAcquire e (heard e rest s) = compute x (heard e rest s))
    (hp : p = roundDiv x (2 ^ s.lpu.cfg.acqP))
    (hi : i = clampAbs (s.lpu.integral + roundDiv x (2 ^ s.lpu.cfg.acqI)) s.lpu.cfg.fLimit)
    (hff : f = clampAbs (p + i) s.lpu.cfg.fLimit)
    (hn : n = (if e.natAbs ≤ s.lpu.cfg.lockThreshold then min (s.lpu.lockCount + 1) 255 else 0)) :
    measureAcquire e (heard e rest s) = checkLock e (acquireSteered e x p i f n r rest s) := by
  have hc := hg.trans (compute_figures (s := heard e rest s) (shiftsOf_acquire hs) hp hi hff)
  unfold measureAcquire
  rw [hc]
  dsimp only
  rw [uncertaintyOf_followed (r := r) (by exact hf)]
  refine congrArg (checkLock e) ?_
  subst hn
  rfl

theorem gateAcquire_within (h : e.natAbs ≤ s.lpu.cfg.stepThreshold) : gateAcquire e s = compute e s :=
  if_pos h

theorem checkLock_locks (h : e.natAbs ≤ s.lpu.cfg.lockThreshold ∧ s.lpu.cfg.lockLimit ≤ s.lpu.lockCount) :
    checkLock e s = ownStateChange .acquire .track (s.setLpu { s.lpu with
      state := .track, unlockCount := 0, outliers := 0, firstLockSpent := true }) := if_pos h

theorem checkLock_counts
    (h : ¬(e.natAbs ≤ s.lpu.cfg.lockThreshold ∧ s.lpu.cfg.lockLimit ≤ s.lpu.lockCount)) :
    checkLock e s = s := if_neg h

/-- Settles O38. -/
theorem acquireSteersAndLocks : Obligations.AcquireSteersAndLocks := by
  intro s r l e δ sp nc rest p i f n h hf hs hp he hpp hi hff hn
  have ht : takeForwarded s = checkLock e (acquireSteered e e p i f n r rest s) :=
    (takeForwarded_acquire h hf hs hp).trans
      (measureAcquire_steers hf hs (gateAcquire_within he) hpp hi hff hn)
  by_cases hl : e.natAbs ≤ s.lpu.cfg.lockThreshold ∧ s.lpu.cfg.lockLimit ≤ n
  · have ht' := ht.trans (checkLock_locks (s := acquireSteered e e p i f n r rest s) hl)
    obtain ⟨hx, ha⟩ := bump_changes (s := s) (u := handTsu (.state .acquire .track)
      (handHou (.state .acquire .track i) ((acquireSteered e e p i f n r rest s).setLpu
        { (acquireSteered e e p i f n r rest s).lpu with
          state := .track, unlockCount := 0, outliers := 0, firstLockSpent := true }))) clsSelect rfl rfl rfl rfl
    refine ⟨_, congrArg Host.Outcome.next ht', rfl, fun _ => ⟨rfl, ?_, rfl, congrArg Attention.count ha, hx⟩,
      fun hn => absurd hl hn, rfl, ?_⟩
    · exact List.append_assoc ..
    · rw [← ht']
      exact takeForwarded_frame s
  · have ht' := ht.trans (checkLock_counts (s := acquireSteered e e p i f n r rest s) hl)
    refine ⟨_, congrArg Host.Outcome.next ht', rfl, fun hy => absurd hy hl, fun _ => ⟨rfl, rfl, rfl, rfl⟩, rfl, ?_⟩
    rw [← ht']
    exact takeForwarded_frame s

theorem gateAcquire_orders (h : s.lpu.cfg.stepThreshold < e.natAbs) (hp : stepPermitted s.lpu = true) :
    gateAcquire e s = handTsu (.step (clampAbs e stepBound))
      (s.setLpu { s.lpu with stepPending := true, lastX := none, lastP := none }) :=
  (if_neg (Nat.not_le.mpr h)).trans (if_pos hp)

theorem gateAcquire_limits (h : s.lpu.cfg.stepThreshold < e.natAbs) (hp : ¬stepPermitted s.lpu = true) :
    gateAcquire e s = compute (limitInput e s.lpu.cfg.stepThreshold) s :=
  (if_neg (Nat.not_le.mpr h)).trans (if_neg hp)

/-- The loop in ACQUIRE once it has ordered a step (R86). -/
def stepOrdered (e : Int) (n : Nat) (r : Ref) (rest : List LoopEvent) (s : State) : State :=
  { s with
    lpu := { s.lpu with
      lockCount := n
      stepPending := true
      lastE := some e
      lastX := none
      lastP := none }
    wires := { s.wires with
      loopIn := rest
      tsuIn := s.wires.tsuIn ++ [.step (clampAbs e stepBound)]
      houIn := s.wires.houIn
        ++ [.uncertainty (min 999999999999 (e.natAbs + s.qsu.refs[r].cfg.accuracy))] } }

theorem measureAcquire_orders (hf : s.lpu.followed = some r) (h : s.lpu.cfg.stepThreshold < e.natAbs)
    (hl : s.lpu.cfg.lockThreshold < e.natAbs) (hp : stepPermitted s.lpu = true)
    (hn : n = (if e.natAbs ≤ s.lpu.cfg.lockThreshold then min (s.lpu.lockCount + 1) 255 else 0)) :
    measureAcquire e (heard e rest s) = stepOrdered e n r rest s := by
  unfold measureAcquire
  rw [gateAcquire_orders (s := heard e rest s) h hp]
  dsimp only
  rw [uncertaintyOf_followed (r := r) (by exact hf)]
  refine Eq.trans (checkLock_counts fun hc => absurd hc.1 (Nat.not_le.mpr hl)) ?_
  subst hn
  rfl

/-- Settles O39. -/
theorem acquireOrdersAStep : Obligations.AcquireOrdersAStep := by
  intro s r l e δ sp nc rest x p i f h hf hs hp hstep hlock hx hpp hi hff
  have hpolicy : s.lpu.cfg.policy = .never ∨ s.lpu.cfg.policy = .firstLock ∧ s.lpu.firstLockSpent = true
      → ¬stepPermitted s.lpu = true := by
    rw [stepPermitted_iff]
    rintro (h | ⟨h, h'⟩) <;> simp [h]
    exact h'
  have hn : (0 : Nat) = if e.natAbs ≤ s.lpu.cfg.lockThreshold then min (s.lpu.lockCount + 1) 255 else 0 :=
    (if_neg (Nat.not_le.mpr hlock)).symm
  by_cases hperm : stepPermitted s.lpu = true
  · have ht := (takeForwarded_acquire h hf hs hp).trans
      (measureAcquire_orders (rest := rest) hf hstep hlock hperm hn)
    exact ⟨_, congrArg Host.Outcome.next ht, fun _ => ⟨rfl, rfl, rfl, rfl⟩, fun hn => absurd hperm (hpolicy hn),
      rfl, by simp [stepOrdered, KeepsAllBut]⟩
  · have hg : gateAcquire e (heard e rest s) = compute x (heard e rest s) := by
      rw [hx]
      exact gateAcquire_limits (s := heard e rest s) hstep hperm
    have ht := ((takeForwarded_acquire h hf hs hp).trans (measureAcquire_steers hf hs hg hpp hi hff hn)).trans
      (checkLock_counts fun hc => absurd hc.1 (Nat.not_le.mpr hlock))
    exact ⟨_, congrArg Host.Outcome.next ht, fun hy => absurd ((stepPermitted_iff _).mpr hy) hperm,
      fun _ => ⟨rfl, rfl, rfl, rfl⟩, rfl, by simp [acquireSteered, KeepsAllBut]⟩

end Acquire

/-! ### TRACK (R88, R89, R96) -/

section Track

variable {s : State} {r : Ref} {e x p i f : Int} {n : Nat} {rest : List LoopEvent}

theorem takeOutlier_eq (hf : s.lpu.followed = some r) : takeOutlier s = { s with
    lpu := { s.lpu with
      lastX := none
      lastP := none
      outliers := if s.lpu.outliers < 2 then s.lpu.outliers + 1 else 0 }
    wires := { s.wires with
      verdicts := s.wires.verdicts ++ (if s.lpu.outliers < 2 then [] else [r]) } } := by
  unfold takeOutlier
  dsimp only
  by_cases h : s.lpu.outliers < 2
  · rw [if_neg (by change ¬3 ≤ s.lpu.outliers + 1; omega), if_pos h, if_pos h, List.append_nil]
    rfl
  · rw [if_pos (by change 3 ≤ s.lpu.outliers + 1; omega), if_neg h, if_neg h]
    simp only [State.setLpu_lpu, hf]
    rfl

/-- The loop in TRACK once it has steered by `x` (R89, R96, R97). -/
def trackFollowed (e x p i f : Int) (n : Nat) (r : Ref) (rest : List LoopEvent) (s : State) : State :=
  { s with
    tsu := { s.tsu with freq := f }
    lpu := { s.lpu with
      integral := i
      unlockCount := n
      outliers := 0
      lastE := some e
      lastX := some x
      lastP := some p
      freqLimit := decide (f ≠ p + i) }
    wires := { s.wires with
      loopIn := rest
      houIn := s.wires.houIn ++ [.feed f]
        ++ [.uncertainty (min 999999999999 (e.natAbs + s.qsu.refs[r].cfg.accuracy))]
      conds := s.wires.conds ++ handed 11 s.lpu.freqLimit (decide (f ≠ p + i)) } }

theorem trackSteered_eq (hf : s.lpu.followed = some r) (hs : s.lpu.state = .track)
    (hx : x = trackInput e s) (hp : p = roundDiv x (2 ^ s.lpu.cfg.trackP))
    (hi : i = clampAbs (s.lpu.integral + roundDiv x (2 ^ s.lpu.cfg.trackI)) s.lpu.cfg.fLimit)
    (hff : f = clampAbs (p + i) s.lpu.cfg.fLimit)
    (hn : n = (if e.natAbs ≤ s.lpu.cfg.unlockThreshold then 0 else min (s.lpu.unlockCount + 1) 255)) :
    trackUnlocks e (heard e rest s) = n
    ∧ trackSteered e (heard e rest s) = trackFollowed e x p i f n r rest s := by
  have hin : trackInput e (heard e rest s) = x := hx.symm
  have hc := compute_figures (s := heard e rest s)
    (shiftsOf_other (by change s.lpu.state ≠ _; rw [hs]; nofun)) hp hi hff
  have hu : trackUnlocks e (heard e rest s) = n := by
    rw [trackUnlocks, hin, hc]
    exact hn.symm
  refine ⟨hu, ?_⟩
  unfold trackSteered
  rw [hu, hin, hc]
  dsimp only
  rw [uncertaintyOf_followed (r := r) (by exact hf)]
  rfl

/-- Settles O40. -/
theorem trackGatesAndUnlocks : Obligations.TrackGatesAndUnlocks := by
  intro s r l e δ sp nc rest x p i f n h hf hs hp hx hpp hi hff hn
  have ht : takeForwarded s = measureTrack e (heard e rest s) := takeForwarded_track h hf hs hp
  have hframe := takeForwarded_frame s
  obtain ⟨hu, hsteer⟩ := trackSteered_eq (rest := rest) hf hs hx hpp hi hff hn
  rw [measureTrack_eq, hu, hsteer] at ht
  have hexec : exec .forwardedMeasurement s = .next (takeForwarded s) := rfl
  by_cases ho : s.lpu.cfg.stepThreshold < e.natAbs
  · have ht' := (ht.trans (if_pos ho)).trans (takeOutlier_eq (s := heard e rest s) hf)
    refine ⟨_, congrArg Host.Outcome.next ht', fun _ => ⟨rfl, rfl, rfl, rfl⟩, fun hn => absurd ho (Nat.not_lt.mpr hn), ?_⟩
    rwa [← ht']
  have ht1 := ht.trans (if_neg ho)
  by_cases hk : e.natAbs ≤ s.lpu.cfg.unlockThreshold ∨ n < s.lpu.cfg.unlockLimit
  · have ht' : takeForwarded s = trackFollowed e x p i f n r rest s := ht1.trans (if_neg (by
      change ¬(!decide (e.natAbs ≤ s.lpu.cfg.unlockThreshold) && decide (s.lpu.cfg.unlockLimit ≤ n)) = true
      simp only [Bool.and_eq_true, Bool.not_eq_true', decide_eq_false_iff_not, decide_eq_true_eq]
      omega))
    refine ⟨_, congrArg Host.Outcome.next ht', fun hn => absurd hn ho, fun _ => ⟨rfl, rfl,
      fun _ => ⟨rfl, rfl, rfl, List.append_assoc ..⟩, fun h1 h2 => by omega⟩, ?_⟩
    rwa [← ht']
  · have ht' : takeForwarded s = ownStateChange .track .acquire ((trackFollowed e x p i f n r rest s).setLpu
        { (trackFollowed e x p i f n r rest s).lpu with state := .acquire, lockCount := 0, outliers := 0 }) :=
      ht1.trans (if_pos (by
        change (!decide (e.natAbs ≤ s.lpu.cfg.unlockThreshold) && decide (s.lpu.cfg.unlockLimit ≤ n)) = true
        simp only [Bool.and_eq_true, Bool.not_eq_true', decide_eq_false_iff_not, decide_eq_true_eq]
        omega))
    obtain ⟨hc, ha⟩ := bump_changes (s := s) (u := handTsu (.state .track .acquire)
      (handHou (.state .track .acquire i) ((trackFollowed e x p i f n r rest s).setLpu
        { (trackFollowed e x p i f n r rest s).lpu with state := .acquire, lockCount := 0, outliers := 0 })))
      clsSelect rfl rfl rfl rfl
    refine ⟨_, congrArg Host.Outcome.next ht', fun hn => absurd hn ho, fun _ => ⟨rfl, rfl,
      fun h1 => absurd h1 hk, fun _ _ => ⟨rfl, congrArg Attention.count ha, congrArg Attention.pending ha, hc,
        rfl, ?_⟩⟩, ?_⟩
    · refine (List.append_assoc ..).trans ((List.append_assoc ..).trans rfl)
    · rwa [← ht']

end Track

/-! ### ASSISTED (R93 to R96) -/

/-- Settles O41. -/
theorem assistedFollowsThePseudoPhase : Obligations.AssistedFollowsThePseudoPhase := by
  intro s r l e δ sp nc rest x p i f h hf hs hp hx0 hx1 hpp hi hff
  have hx : nextPseudo s.lpu.pseudo (some δ) nc = x := by
    rcases hv : s.lpu.pseudo with _ | v
    · exact (hx0 (.inl hv)).symm
    · cases nc
      · exact (hx1 v hv rfl).symm
      · exact (hx0 (.inr rfl)).symm
  have ht : takeForwarded s = measureAssisted (some δ) nc (s.setWires { s.wires with loopIn := rest }) :=
    takeForwarded_assisted h hf hs hp
  have hc := compute_figures (s := (s.setWires { s.wires with loopIn := rest }).setLpu
      { s.lpu with pseudo := some x, lastE := some x })
    (shiftsOf_other (by change s.lpu.state ≠ _; rw [hs]; nofun)) hpp hi hff
  unfold measureAssisted at ht
  dsimp only at ht
  rw [State.setWires_lpu, hx, hc] at ht
  refine ⟨_, congrArg Host.Outcome.next ht, rfl, rfl, rfl, ?_⟩
  simp [feedHistory, KeepsAllBut]

/-! ### Notices that do not apply, and the loop's boundary (R82, R84, R86, R87, R92) -/

theorem noticeApplies_of_not {r : Ref} {l : Lpu} (h : l.followed ≠ some r ∨ l.state = .freeRun
    ∨ l.state = .holdover ∨ l.stepPending = true) : ¬noticeApplies r l = true := by
  rw [noticeApplies_iff]
  rintro ⟨hf, hr, hh, hp⟩
  obtain h | h | h | h := h
  · exact h hf
  · exact hr h
  · exact hh h
  · rw [hp] at h; exact absurd h nofun

theorem takeForwarded_discards {s : State} {r : Ref} {l : Label} {e δ : Option Int} {sp : Option Nat}
    {nc : Bool} {rest : List LoopEvent} (h : s.wires.loopIn = .forwarded r l e δ sp nc :: rest)
    (hn : ¬noticeApplies r s.lpu = true) :
    takeForwarded s = s.setWires { s.wires with loopIn := rest } := by
  simp only [takeForwarded, h]
  exact if_neg hn

theorem takeUnusable_eq {s : State} {r : Ref} {l : Label} {c : Cause} {rest : List LoopEvent}
    (h : s.wires.loopIn = .unusable r l c :: rest) : takeUnusable s
      = if noticeApplies r s.lpu && s.lpu.state == .acquire
        then (s.setWires { s.wires with loopIn := rest }).setLpu { s.lpu with lockCount := 0 }
        else s.setWires { s.wires with loopIn := rest } := by
  simp only [takeUnusable, h]
  rfl

theorem takeLpuBoundary_eq {s : State} {b : Boundary} {rest : List Boundary} {free : Bool}
    (h : s.wires.lpuBnd = b :: rest)
    (hf : free = (s.lpu.freeRunning || (s.lpu.state == .freeRun && !s.lpu.warmHold))) :
    takeLpuBoundary s = { s with
      lpu := { s.lpu with
        stepPending := s.lpu.stepPending && !(b.step.any fun p => p.2 == .loop)
        freeRunning := free }
      wires := { s.wires with
        lpuBnd := rest
        conds := s.wires.conds ++ handed 10 s.lpu.freeRunning free } } := by
  subst hf
  simp only [takeLpuBoundary, h, boundaryLpu, handIfChanged_eq]
  rfl

/-- Settles O42. -/
theorem loopNoticesAndBoundary : Obligations.LoopNoticesAndBoundary := by
  refine ⟨⟨fun s r l e δ sp nc rest h hn => ?_, fun s r l c rest h => ⟨fun hf hs hp => ?_, fun hn => ?_⟩⟩,
    fun s b rest free h hfree => ?_⟩
  · exact congrArg Host.Outcome.next (takeForwarded_discards h (noticeApplies_of_not hn))
  · refine congrArg Host.Outcome.next ((takeUnusable_eq h).trans (if_pos ?_))
    have ha : noticeApplies r s.lpu = true :=
      (noticeApplies_iff ..).mpr ⟨hf, by rw [hs]; nofun, by rw [hs]; nofun, hp⟩
    rw [ha, hs]
    rfl
  · refine congrArg Host.Outcome.next ((takeUnusable_eq h).trans (if_neg fun hc => ?_))
    obtain ⟨ha, hs⟩ := Bool.and_eq_true_iff.mp hc
    obtain ⟨hf, -, -, hp⟩ := (noticeApplies_iff ..).mp ha
    obtain hn | hn | hn := hn
    · exact hn hf
    · exact hn (beq_iff_eq.mp hs)
    · rw [hp] at hn; exact absurd hn nofun
  · have hfree' : free = (s.lpu.freeRunning || (s.lpu.state == .freeRun && !s.lpu.warmHold)) := by
      rw [Bool.eq_iff_iff, hfree]
      simp
    refine ⟨_, congrArg Host.Outcome.next (takeLpuBoundary_eq h hfree'), fun ⟨v, hv⟩ => ?_, fun hv => ?_, ?_,
      by simp [KeepsAllBut]⟩
    · simp [hv]
    · have hany : (b.step.any fun p => p.2 == .loop) = false := by
        rcases hb : b.step with _ | ⟨v, src⟩
        · rfl
        · cases src
          · rfl
          · exact absurd hb (hv v)
      simp only [hany, Bool.not_false, Bool.and_true]
    · have hh : handed 10 s.lpu.freeRunning free
          = if s.lpu.freeRunning = free then [] else [⟨10, true⟩] := by
        by_cases hc : s.lpu.freeRunning = free
        · exact (if_pos hc).trans (if_pos hc).symm
        · have ht : free = true := by
            cases hr : s.lpu.freeRunning
            · cases free
              · exact absurd hr hc
              · rfl
            · exact hfree.mpr (.inl hr)
          rw [if_neg hc, handed, if_neg hc, ht]
      rw [← hh]

/-! ### CONFIGURE-LOOP (R98, R99) -/

theorem applyLoopConfig_eq (cfg : LoopConfig) (s : State) : applyLoopConfig cfg s = { s with
    tsu := { s.tsu with freq := clampAbs s.tsu.freq cfg.fLimit }
    lpu := { s.lpu with
      cfg := cfg
      integral := clampAbs s.lpu.integral cfg.fLimit
      freqLimit := s.lpu.freqLimit || decide (cfg.fLimit < s.tsu.freq.natAbs) }
    wires := { s.wires with
      conds := s.wires.conds ++ handed 11 s.lpu.freqLimit
        (s.lpu.freqLimit || decide (cfg.fLimit < s.tsu.freq.natAbs)) } } := by
  have hc : (clampAbs s.tsu.freq cfg.fLimit != s.tsu.freq) = decide (cfg.fLimit < s.tsu.freq.natAbs) :=
    clampAbs_ne_iff ..
  unfold applyLoopConfig
  dsimp only
  rw [hc]
  by_cases h : cfg.fLimit < s.tsu.freq.natAbs
  · rw [if_pos (decide_eq_true h), settleFreqLimit_eq, decide_eq_true h, Bool.or_true]
    rfl
  · rw [if_neg (by simpa using h), decide_eq_false h, Bool.or_false, handed_same, List.append_nil]
    rfl

/-- Settles O43. -/
theorem configureLoopReplacesAll : Obligations.ConfigureLoopReplacesAll := by
  intro s n p good hh hp hgood
  have hgood' : good ↔ LoopParamsGood p := hgood
  have ht : takeRequest 6 takeConfigureLoop s = takeConfigureLoop n p (handEmptied s) := by
    rw [hp]
    exact takeRequest_held takeConfigureLoop hh
  have hframe : KeepsAllBut [.tsu, .lpu, .xu, .wires] s (takeRequest 6 takeConfigureLoop s) :=
    takeRequest_frame s (by decide) takeConfigureLoop_frame
  by_cases hg : good
  · have hc : loopConfigOf p = some (namedLoopConfig p) := loopConfigOf_eq_some.mpr ⟨hgood'.mp hg, rfl⟩
    have ht' : takeRequest 6 takeConfigureLoop s
        = completeNow n .ok (applyLoopConfig (namedLoopConfig p) (handEmptied s)) := by
      rw [ht]
      simp only [takeConfigureLoop, hc]
    rw [applyLoopConfig_eq] at ht'
    rw [ht'] at hframe
    refine ⟨_, congrArg Host.Outcome.next ht', fun hn => absurd hg hn, fun _ => ⟨?_, ?_, ?_, ?_, ?_⟩, hframe⟩
    · rw [completeNow_lpu]; rfl
    · rw [completeNow_tsu]; rfl
    · rw [completeNow_lpu]; rfl
    · rw [completeNow_wires, completeNow_lpu]; rfl
    · exact completes_plain .ok hh rfl rfl rfl rfl rfl
  · have hc : loopConfigOf p = none := by
      rcases hc : loopConfigOf p with _ | cfg
      · rfl
      · exact absurd (hgood'.mpr (loopConfigOf_eq_some.mp hc).1) hg
    have ht' : takeRequest 6 takeConfigureLoop s = completeNow n .invalid (handEmptied s) := by
      rw [ht]
      simp only [takeConfigureLoop, hc]
    rw [ht'] at hframe
    exact ⟨_, congrArg Host.Outcome.next ht', fun _ => ⟨completeNow_tsu .., completeNow_lpu ..,
      completeNow_wires .., completeNow_held .invalid hh⟩, fun hy => absurd hy hg, hframe⟩

end Sys2Proof.Machine
end

section
/-! PROOFS. The holdover unit: the history's feeds, pushes and pops, holdover entry, the boundary and the
unit's requests. -/

namespace Sys2Proof.Machine

open Sys2Proof.Safety Config

/-! ### Settling after an event (R113 to R115) -/

/-- What settling leaves of an event: the new fields with class and conditions derived, each change of
presence handed, and every other part as it was. -/
theorem settleHou_event (h : Hou) (w : Wires) (s : State) :
    (settleHou h (s.setWires w)).hou = derived h ∧ HouSettled (settleHou h (s.setWires w)).hou
    ∧ (settleHou h (s.setWires w)).wires = { w with
        conds := w.conds ++ houHanded s.hou (settleHou h (s.setWires w)).hou }
    ∧ KeepsAllBut [.hou, .wires] s (settleHou h (s.setWires w)) := by
  rw [settleHou_eq]
  exact ⟨rfl, houSettled_derived h, rfl, by simp [KeepsAllBut]⟩

section Events

variable {s : State} {rest : List HouEvent} (he : s.hou.ended = false)

include he

theorem takeFeed_eq {f : Int} (h : s.wires.houIn = .feed f :: rest) :
    takeFeed s = settleHou (addFeed f s.hou) (s.setWires { s.wires with houIn := rest }) := by
  unfold takeFeed intervalDue
  rw [he, h]
  rfl

theorem takeUncertainty_eq {v : Nat} (h : s.wires.houIn = .uncertainty v :: rest) :
    takeUncertainty s = settleHou (takeValue v s.hou) (s.setWires { s.wires with houIn := rest }) := by
  unfold takeUncertainty intervalDue
  rw [he, h]
  rfl

theorem takeGuardPop_eq (h : s.wires.houIn = .guardPop :: rest) :
    takeGuardPop s = settleHou (guardPops s.hou) (s.setWires { s.wires with houIn := rest }) := by
  unfold takeGuardPop intervalDue
  rw [he, h]
  rfl

theorem takeLoopStateHou_eq {before after : LoopState} {i : Int}
    (h : s.wires.houIn = .state before after i :: rest) : takeLoopStateHou s
      = settleHou (changeHouLoop before after i s.hou) (s.setWires { s.wires with houIn := rest }) := by
  unfold takeLoopStateHou intervalDue
  rw [he, h]
  rfl

theorem takeIntervalEnd_open : takeIntervalEnd s = s := if_neg (by rw [intervalDue, he]; nofun)

end Events

/-- An interval that has ended comes before every other event of the unit (log entry 8). -/
theorem ended_waits {s : State} (h : s.hou.ended = true) :
    exec .historyFeed s = .next s ∧ exec .guardPopNotice s = .next s
      ∧ exec .loopStateChangeHou s = .next s ∧ exec .uncertaintyValue s = .next s
      ∧ exec .houBoundary s = .next s ∧ exec .clearHistory s = .next s
      ∧ exec .configureHoldover s = .next s := by
  refine ⟨?_, ?_, ?_, ?_, ?_, ?_, ?_⟩ <;> exact congrArg Host.Outcome.next (if_pos h)

/-! ### The stack (R103 to R106) -/

theorem levelAt_succ (h : Hou) {k : Nat} (hk : k < 8) : levelAt h (k + 1) = h.levels[k] := by
  unfold levelAt
  simp [List.getD_eq_getElem?_getD, hk]

theorem learnedAging_some {h : Hou} (hf : 4 ≤ h.fill) : learnedAging h =
    some (roundDiv ((h.levels[0] - h.levels.toList.getD (h.fill - 1) 0) * 86400)
      ((h.fill - 1) * h.cfg.interval)) := by
  have h1 : levelAt h 1 = h.levels[0] := levelAt_succ h (by decide)
  rw [learnedAging, if_pos hf, h1]
  rfl

theorem learnedAging_none {h : Hou} (hf : h.fill < 4) : learnedAging h = none :=
  if_neg (Nat.not_le.mpr hf)

theorem endInterval_fed {h : Hou} (hf : h.cfg.interval ≤ 2 * h.count) : endInterval h =
    relearn (discardInterval (pushLevel (roundDiv h.sum h.count) { h with ended := false })) := if_pos hf

theorem endInterval_unfed {h : Hou} (hf : 2 * h.count < h.cfg.interval) :
    endInterval h = discardInterval { h with ended := false } := if_neg (Nat.not_le.mpr hf)

theorem pushLevel_newest (x : Int) (h : Hou) : (pushLevel x h).levels[0] = x := by
  simp [pushLevel]

theorem pushLevel_older (x : Int) (h : Hou) (k : Fin 7) :
    (pushLevel x h).levels[k.val + 1] = h.levels[k.val] := by
  have hk := k.isLt
  simp only [pushLevel, Vector.getElem_ofFn, Nat.succ_ne_zero, if_false]
  exact levelAt_succ h (by omega)

theorem popLevels_empty (g : Nat) {h : Hou} (hf : h.fill = 0) : popLevels g h = h := by
  induction g with
  | zero => rfl
  | succ g ih =>
    have hp : popLevel h = h := if_pos hf
    rw [popLevels, hp, ih]

theorem popLevel_levels {h : Hou} (hf : h.fill ≠ 0) {i : Nat} (hi : i + 1 < 8) :
    (popLevel h).levels[i] = h.levels[i + 1] := by
  unfold popLevel
  rw [if_neg hf]
  simp only [Vector.getElem_ofFn]
  rw [if_neg (by omega)]
  exact levelAt_succ h hi

/-- `g` pops move the levels down by `g` places (R105). -/
theorem popLevels_levels (g : Nat) {h : Hou} (hf : g ≤ h.fill) {i : Nat} (hi : i + g < 8) :
    (popLevels g h).levels[i] = h.levels[i + g] := by
  induction g generalizing h with
  | zero => rfl
  | succ g ih =>
    have hpos : h.fill ≠ 0 := by omega
    have hfill : (popLevel h).fill = h.fill - 1 := by
      unfold popLevel
      rw [if_neg hpos]
    rw [popLevels, ih (by omega) (by omega), popLevel_levels hpos (by omega)]
    rfl

/-- Settles O44. -/
theorem historyIsFedPushedAndPopped : Obligations.HistoryIsFedPushedAndPopped := by
  refine ⟨fun s f rest h he => ?_, fun s he => congrArg Host.Outcome.next (takeIntervalEnd_open he),
    fun s he => ⟨ended_waits he, ?_⟩, fun s rest h he => ?_⟩
  · obtain ⟨hhou, hset, hw, hk⟩ := settleHou_event (addFeed f s.hou) { s.wires with houIn := rest } s
    exact ⟨_, congrArg Host.Outcome.next (takeFeed_eq he h), by rw [hhou]; rfl, hset, hw, hk⟩
  · have ht : takeIntervalEnd s = settleHou (endInterval s.hou) (s.setWires s.wires) := if_pos he
    obtain ⟨hhou, hset, hw, hk⟩ := settleHou_event (endInterval s.hou) s.wires s
    refine ⟨_, congrArg Host.Outcome.next ht, ?_, fun hf => ?_, fun hf => ?_, hset, hw, hk⟩
    · rw [hhou, endInterval]
      split <;> rfl
    · rw [hhou, endInterval_fed hf]
      refine ⟨rfl, pushLevel_newest .., fun k => pushLevel_older _ _ k, fun h4 => ?_, fun h4 => ?_⟩
      · exact learnedAging_some
          (h := discardInterval (pushLevel (roundDiv s.hou.sum s.hou.count) { s.hou with ended := false })) h4
      · exact learnedAging_none
          (h := discardInterval (pushLevel (roundDiv s.hou.sum s.hou.count) { s.hou with ended := false })) h4
    · rw [hhou, endInterval_unfed hf]
      exact ⟨rfl, rfl, rfl⟩
  · obtain ⟨hhou, hset, hw, hk⟩ := settleHou_event (guardPops s.hou) { s.wires with houIn := rest } s
    refine ⟨_, congrArg Host.Outcome.next (takeGuardPop_eq he h), ?_, fun hg i j hij => ?_, fun hf => ?_,
      fun h4 => ?_, fun h4 => ?_, hset, hw, hk⟩
    · rw [hhou, guardPops_eq]; rfl
    · rw [hhou]
      have hj := j.isLt
      refine (popLevels_levels s.hou.cfg.guards hg (i := i.val) (by omega)).trans ?_
      simp only [← hij]
      rfl
    · rw [hhou]
      exact (congrArg Hou.levels (popLevels_empty s.hou.cfg.guards hf) :)
    · rw [hhou] at h4 ⊢
      exact learnedAging_none (h := discardInterval (popLevels s.hou.cfg.guards s.hou)) h4
    · rw [hhou] at h4 ⊢
      refine (learnedAging_some (h := discardInterval (popLevels s.hou.cfg.guards s.hou)) h4).trans ?_
      have hc : (discardInterval (popLevels s.hou.cfg.guards s.hou)).cfg = s.hou.cfg := by
        rw [popLevels_eq]
        rfl
      rw [hc]
      rfl

/-! ### The loop's state changes and values (R104, R108, R110, R112) -/

theorem changeHouLoop_eq (b a : LoopState) (i : Int) (h : Hou) : changeHouLoop b a i h =
    { (if a = .holdover then enterHoldover i h else h) with
      loop := a
      sum := if b = .track ∨ b = .assisted then 0 else h.sum
      count := if b = .track ∨ b = .assisted then 0 else h.count
      position := if b = .track ∨ b = .assisted then 0 else h.position } := by
  unfold changeHouLoop
  by_cases hb : b = .track ∨ b = .assisted <;> by_cases ha : a = .holdover <;>
    simp only [if_pos, if_neg, hb, ha, not_false_eq_true] <;> rfl

/-- Settles O45. -/
theorem holdoverIsEntered : Obligations.HoldoverIsEntered := by
  refine ⟨fun s before after i rest d m h he hd hm => ?_, fun s v rest h he hl => ?_⟩
  · obtain ⟨hhou, hset, hw, hk⟩ :=
      settleHou_event (changeHouLoop before after i s.hou) { s.wires with houIn := rest } s
    have ht := takeLoopStateHou_eq he h
    generalize settleHou (changeHouLoop before after i s.hou) (s.setWires { s.wires with houIn := rest }) = t
      at hhou hset hw hk ht
    rw [changeHouLoop_eq] at hhou
    have hentered : ∀ {α : Type} (f : Hou → α), (∀ j k, f (enterHoldover j k) = f k) →
        f (if after = .holdover then enterHoldover i s.hou else s.hou) = f s.hou := fun f hf => by
      split
      · exact hf ..
      · rfl
    refine ⟨t, congrArg Host.Outcome.next ht, by rw [hhou]; rfl, ?_, fun hb => ?_, fun hb hb' => ?_,
      fun ha => ?_, fun ha => ?_, ?_, ?_, ?_, ?_, ?_, hset, hw, hk⟩
    · rw [hhou]; exact hentered Hou.u fun _ _ => rfl
    · rw [hhou]
      exact ⟨if_pos hb, if_pos hb, if_pos hb⟩
    · have hn : ¬(before = .track ∨ before = .assisted) := not_or.mpr ⟨hb, hb'⟩
      rw [hhou]
      exact ⟨if_neg hn, if_neg hn, if_neg hn⟩
    · rw [hhou, if_pos ha, hd, hm]
      exact ⟨rfl, rfl, rfl, rfl⟩
    · rw [hhou, if_neg ha]
      exact ⟨rfl, rfl, rfl, rfl⟩
    · rw [hhou]; exact hentered Hou.levels fun _ _ => rfl
    · rw [hhou]; exact hentered Hou.fill fun _ _ => rfl
    · rw [hhou]; exact hentered Hou.dLearn fun _ _ => rfl
    · rw [hhou]; exact hentered Hou.cfg fun _ _ => rfl
    · rw [hhou]; exact (hentered Hou.ended fun _ _ => rfl).trans he
  · obtain ⟨hhou, hset, hw, hk⟩ := settleHou_event (takeValue v s.hou) { s.wires with houIn := rest } s
    have hv : takeValue v s.hou = { s.hou with u := min uMax v } := if_pos hl
    have hfree : (s.hou.loop != .freeRun) = true := by
      obtain hl | hl := hl <;> rw [hl] <;> rfl
    have hbudget : (derived (takeValue v s.hou)).budget
        = decide (s.hou.cfg.uAlarm < (derived (takeValue v s.hou)).u) := by
      rw [hv]
      exact (congrArg (decide (s.hou.cfg.uAlarm < min uMax v) && ·) hfree).trans (Bool.and_true _)
    refine ⟨_, congrArg Host.Outcome.next (takeUncertainty_eq he h), ?_, ?_, hset, hw, hk⟩
    · rw [hhou, hv]; rfl
    · rw [hhou, ← hbudget, hv]; rfl

/-! ### The boundary (R101, R102, R109, R112, R113) -/

theorem growUncertainty_eq (h : Hou) : growUncertainty h =
    { h with clock := (growUncertainty h).clock, u := (growUncertainty h).u } := by
  unfold growUncertainty
  split <;> rfl

theorem boundaryHou_eq (h : Hou) : boundaryHou h = { h with
    position := (countPosition h).position
    ended := (countPosition h).ended
    clock := (boundaryHou h).clock
    u := (boundaryHou h).u } := by
  have hc := countPosition_eq h
  have hg := growUncertainty_eq (countPosition h)
  rw [boundaryHou, hg]
  rw [hc]

theorem writeHold_eq (f : Int) (s : State) : writeHold f s = { s with
    tsu := { s.tsu with freq := clampAbs f s.lpu.cfg.fLimit }
    lpu := { s.lpu with freqLimit := decide (clampAbs f s.lpu.cfg.fLimit ≠ f) }
    wires := { s.wires with
      conds := s.wires.conds ++ handed 11 s.lpu.freqLimit (decide (clampAbs f s.lpu.cfg.fLimit ≠ f)) } } := by
  have hb : (clampAbs f s.lpu.cfg.fLimit != f) = decide (clampAbs f s.lpu.cfg.fLimit ≠ f) := by
    rw [Bool.eq_iff_iff, bne_iff_ne, decide_eq_true_iff]
  rw [writeHold, settleFreqLimit_eq, hb]
  rfl

/-- Of the wires, F_hold's writing settles FREQUENCY-LIMIT (R91, R109). -/
theorem holdWritten_wires (s : State) : (holdWritten s).hou = s.hou ∧ (holdWritten s).wires = { s.wires with
      conds := s.wires.conds ++ handed 11 s.lpu.freqLimit (holdWritten s).lpu.freqLimit } := by
  unfold holdWritten
  split
  · rw [writeHold_eq]
    exact ⟨rfl, rfl⟩
  · rw [handed_same, List.append_nil]
    exact ⟨rfl, rfl⟩

theorem boundaryHou_loop (h : Hou) : (boundaryHou h).loop = h.loop := by rw [boundaryHou_eq]

theorem holdWritten_holdover {s : State} (hl : s.hou.loop = .holdover) :
    holdWritten s = writeHold (holdFrequency (boundaryHou s.hou)) s :=
  if_pos ((boundaryHou_loop _).trans hl)

theorem holdWritten_other {s : State} (hl : s.hou.loop ≠ .holdover) : holdWritten s = s :=
  if_neg fun h => hl ((boundaryHou_loop _).symm.trans h)

/-- What the unit's work at a boundary leaves, `b` being the state without the boundary taken. -/
theorem workBoundary_leaves (b : State) :
    (workBoundary b).hou = derived (boundaryHou b.hou) ∧ (workBoundary b).tsu = (holdWritten b).tsu
    ∧ (workBoundary b).lpu = (holdWritten b).lpu
    ∧ (workBoundary b).wires = { b.wires with
        ptuValues := b.wires.ptuValues ++ [⟨(workBoundary b).hou.u, (workBoundary b).hou.quality⟩]
        xuValues := b.wires.xuValues ++ [⟨(workBoundary b).hou.u, (workBoundary b).hou.quality⟩]
        conds := b.wires.conds ++ handed 11 b.lpu.freqLimit (workBoundary b).lpu.freqLimit
          ++ houHanded b.hou (workBoundary b).hou } := by
  obtain ⟨hhou, hwires⟩ := holdWritten_wires b
  rw [workBoundary_eq, settleHou_eq, hhou, hwires]
  exact ⟨rfl, rfl, rfl, rfl⟩

theorem boundaryHou_holdover {h : Hou} (hl : h.loop = .holdover) : boundaryHou h =
    { h with
      clock := min (h.clock + 1) 4294967295
      u := holdUncertainty { h with clock := min (h.clock + 1) 4294967295 } } := by
  have hc : countPosition h = h := if_neg (by rw [hl]; simp)
  rw [boundaryHou, hc]
  unfold growUncertainty
  rw [hl]
  rfl

theorem boundaryHou_assisted {h : Hou} (hl : h.loop = .assisted) :
    (boundaryHou h).u = min 999999999999 (h.u + h.cfg.yAssist) ∧ (boundaryHou h).clock = h.clock := by
  obtain ⟨hu, -, hl', -, -, hk, hcfg⟩ := countPosition_rest h
  unfold boundaryHou growUncertainty
  rw [hl', hl]
  dsimp only
  rw [hu, hcfg]
  exact ⟨rfl, hk⟩

theorem boundaryHou_other {h : Hou} (ha : h.loop ≠ .assisted) (hh : h.loop ≠ .holdover) :
    (boundaryHou h).u = h.u ∧ (boundaryHou h).clock = h.clock := by
  obtain ⟨hu, -, hl', -, -, hk, -⟩ := countPosition_rest h
  unfold boundaryHou growUncertainty
  rw [hl']
  split
  · exact absurd ‹_› ha
  · exact absurd ‹_› hh
  · exact ⟨hu, hk⟩

theorem boundaryHou_position (h : Hou) : (boundaryHou h).position = (countPosition h).position
    ∧ (boundaryHou h).ended = (countPosition h).ended := by
  rw [boundaryHou_eq]
  exact ⟨rfl, rfl⟩

theorem holdUncertainty_eq {h : Hou} {n f : Nat} (hn : h.clock = n)
    (hf : (f : Int) = roundDiv ((h.cfg.aging * n ^ 2 : Nat) : Int) 172800) :
    holdUncertainty h = min 999999999999 (h.uEntry + h.cfg.yHold * n + f) := by
  rw [holdUncertainty, hn, ← hf]
  rfl

/-- Settles O46. -/
theorem holdoverBoundary : Obligations.HoldoverBoundary := by
  intro s b rest h he
  have ht : takeHouBoundary s = workBoundary (s.setWires { s.wires with houBnd := rest }) := by
    unfold takeHouBoundary intervalDue
    rw [he, h]
    rfl
  have hframe := takeHouBoundary_frame s
  obtain ⟨hhou, htsu, hlpu, hwires⟩ := workBoundary_leaves (s.setWires { s.wires with houBnd := rest })
  rw [← ht, State.setWires_hou] at hhou
  rw [← ht] at htsu hlpu hwires
  have hexec : exec .houBoundary s = .next (takeHouBoundary s) := rfl
  generalize takeHouBoundary s = t at hhou htsu hlpu hwires hexec hframe
  have hpos : t.hou.position = (countPosition s.hou).position ∧ t.hou.ended = (countPosition s.hou).ended := by
    rw [hhou]
    exact boundaryHou_position s.hou
  have hother : s.hou.loop ≠ .holdover → holdWritten (s.setWires { s.wires with houBnd := rest })
      = s.setWires { s.wires with houBnd := rest } := fun hl => holdWritten_other hl
  refine ⟨t, hexec, fun hl => ⟨fun hp => ?_, fun hp => ?_⟩, fun ht' ha => ?_, fun ha hh => ?_, fun ha => ?_,
    fun n f g hl hn hf hg => ?_, fun hl => ⟨?_, ?_, ?_⟩, ?_, ?_, hwires, hframe⟩
  · have hc : countPosition s.hou = { s.hou with position := s.hou.position + 1 } :=
      (if_pos hl).trans (if_pos hp)
    rw [hpos.1, hpos.2, hc]
    exact ⟨rfl, he⟩
  · have hc : countPosition s.hou = { s.hou with position := 0, ended := true } :=
      (if_pos hl).trans (if_neg (Nat.not_lt.mpr hp))
    rw [hpos.1, hpos.2, hc]
    exact ⟨rfl, rfl⟩
  · have hc : countPosition s.hou = s.hou := if_neg (not_or.mpr ⟨ht', ha⟩)
    rw [hpos.1, hpos.2, hc]
    exact ⟨rfl, he⟩
  · rw [hhou]; exact (boundaryHou_other ha hh).1
  · rw [hhou]; exact (boundaryHou_assisted ha).1
  · have hk := boundaryHou_holdover hl
    rw [← hn] at hk
    have hfreq : holdFrequency (boundaryHou s.hou) = g := by rw [hk, hg]; rfl
    have hw := (holdWritten_holdover (s := s.setWires { s.wires with houBnd := rest }) hl).trans
      (writeHold_eq _ _)
    rw [State.setWires_hou, hfreq] at hw
    refine ⟨by rw [hhou, hk]; rfl, ?_, by rw [htsu, hw]; rfl, by rw [hlpu, hw]; rfl⟩
    rw [hhou, hk]
    exact holdUncertainty_eq (h := { s.hou with clock := n }) rfl hf
  · rw [htsu, hother hl]; rfl
  · rw [hlpu, hother hl]; rfl
  · rw [hhou]
    by_cases ha : s.hou.loop = .assisted
    · exact (boundaryHou_assisted ha).2
    · exact (boundaryHou_other ha hl).2
  · rw [hhou, boundaryHou_eq]; rfl
  · rw [hhou]; exact houSettled_derived _

/-! ### The unit's requests (R107, R116, R117) -/

theorem settle_completes {s : State} {n : Slot} {kind : Nat} (k : Completion) (hh : Held n kind s) (h : Hou)
    {t : State} (ht : t = completeNow n k (settleHou h (handEmptied s))) :
    t.hou = derived h ∧ HouSettled t.hou
    ∧ t.wires = { s.wires with conds := s.wires.conds ++ houHanded s.hou t.hou }
    ∧ CompletesHeld n k.code s.tsu.label s t := by
  rw [settleHou_eq] at ht
  have hhou : t.hou = derived h := by rw [ht, completeNow_hou]
  refine ⟨hhou, by rw [hhou]; exact houSettled_derived h, ?_, ?_⟩
  · rw [hhou, ht, completeNow_wires]; rfl
  · rw [ht]
    exact completes_plain k hh rfl rfl rfl rfl rfl

theorem applyHoldConfig_same {cfg : HoldConfig} {h : Hou} (hi : cfg.interval = h.cfg.interval) :
    applyHoldConfig cfg h = { h with cfg := cfg } := if_neg (not_not.mpr hi)

theorem applyHoldConfig_changed {cfg : HoldConfig} {h : Hou} (hi : cfg.interval ≠ h.cfg.interval) :
    applyHoldConfig cfg h = relearn (discardInterval { h with cfg := cfg }) := if_pos hi

theorem applyHoldConfig_eq (cfg : HoldConfig) (h : Hou) : applyHoldConfig cfg h = { h with
    sum := (applyHoldConfig cfg h).sum
    count := (applyHoldConfig cfg h).count
    position := (applyHoldConfig cfg h).position
    dLearn := (applyHoldConfig cfg h).dLearn
    cfg := cfg } := by
  by_cases hi : cfg.interval = h.cfg.interval
  · rw [applyHoldConfig_same hi]
  · rw [applyHoldConfig_changed hi]
    rfl

/-- Settles O47. -/
theorem holdoverRequests : Obligations.HoldoverRequests := by
  refine ⟨fun s n hh he => ?_, fun s n p good v hh hp he hv hgood => ?_⟩
  · have ht : exec .clearHistory s = .next (takeRequest 8 takeClearHistory s) :=
      congrArg Host.Outcome.next (if_neg (by rw [intervalDue, he]; nofun))
    have hreq : takeRequest 8 takeClearHistory s
        = completeNow n .ok (settleHou (clearedHistory s.hou) (handEmptied s)) :=
      takeRequest_held takeClearHistory hh
    obtain ⟨hhou, hset, hw, hdone⟩ := settle_completes .ok hh _ hreq
    exact ⟨_, ht, by rw [hhou]; rfl, hset, hw, hdone, takeRequest_frame s (by decide) takeClearHistory_frame⟩
  · have hgood' : good ↔ HoldParamsGood p := hgood
    have ht : exec .configureHoldover s = .next (takeRequest 7 takeConfigureHoldover s) :=
      congrArg Host.Outcome.next (if_neg (by rw [intervalDue, he]; nofun))
    have hreq : takeRequest 7 takeConfigureHoldover s = takeConfigureHoldover n p (handEmptied s) := by
      rw [hp]
      exact takeRequest_held takeConfigureHoldover hh
    have hframe : KeepsAllBut [.hou, .xu, .wires] s (takeRequest 7 takeConfigureHoldover s) :=
      takeRequest_frame s (by decide) takeConfigureHoldover_frame
    generalize takeRequest 7 takeConfigureHoldover s = t at ht hreq hframe
    by_cases hg : good
    · have hc := holdConfigOf_eq_some.mpr ⟨hgood'.mp hg, rfl⟩
      unfold takeConfigureHoldover at hreq
      rw [hc] at hreq
      obtain ⟨hhou, hset, hw, hdone⟩ := settle_completes _ hh (applyHoldConfig (namedHoldConfig p) s.hou) hreq
      have hi : (namedHoldConfig p).interval = v := hv.symm
      refine ⟨t, ht, fun hn => absurd hg hn, fun _ => ⟨?_, fun hs => ?_, fun hs => ?_, ?_, hset, hw, ?_⟩, hframe⟩
      · rw [hhou, applyHoldConfig_eq, hv]; rfl
      · rw [hhou, applyHoldConfig_same (hi.trans hs)]
        exact ⟨rfl, rfl, rfl, rfl⟩
      · rw [hhou, applyHoldConfig_changed (by rw [hi]; exact hs)]
        refine ⟨rfl, rfl, rfl, fun hf => ?_, fun hf => ?_⟩
        · exact learnedAging_none (h := discardInterval { s.hou with cfg := namedHoldConfig p }) hf
        · rw [hv]
          exact learnedAging_some (h := discardInterval { s.hou with cfg := namedHoldConfig p }) hf
      · rw [hhou, applyHoldConfig_eq]; rfl
      · rw [hv]
        by_cases hcl : max 16 (min 3600 (Params.n1 p 0)) = Params.n1 p 0
        · rw [if_neg (by simpa using hcl)] at hdone
          rwa [if_pos hcl]
        · rw [if_pos (by simpa using hcl)] at hdone
          rwa [if_neg hcl]
    · have hc : holdConfigOf p = none := by
        rcases hc : holdConfigOf p with _ | x
        · rfl
        · exact absurd (hgood'.mpr (holdConfigOf_eq_some.mp hc).1) hg
      unfold takeConfigureHoldover at hreq
      rw [hc] at hreq
      subst hreq
      exact ⟨_, ht, fun _ => ⟨completeNow_hou .., completeNow_wires .., completeNow_held .invalid hh⟩,
        fun hy => absurd hy hg, hframe⟩

end Sys2Proof.Machine
end

section
/-! PROOFS. The alarms: changes of condition, boundaries, expiries, acknowledgement and configuration. -/

namespace Sys2Proof.Machine

open Sys2Proof.Safety Config

/-! ### A change of an entry's state (R154) -/

/-- Where one entry alone may be in another state, ALARM is bumped once if it is and is unmasked, and not
at all otherwise (R172). -/
theorem bumpsShown_alarm {s t : State} (c : AlarmCode)
    (ho : ∀ y : AlarmCode, y ≠ c → t.alu.entries[y].state = s.alu.entries[y].state) :
    bumpsShown s t clsAlarm = if t.alu.entries[c].mask = false
      ∧ s.alu.entries[c].state ≠ t.alu.entries[c].state then 1 else 0 := by
  refine (if_neg (by decide)).trans ((if_pos rfl).trans ?_)
  split
  · rename_i h
    refine (countP_flip (p := fun _ => false) (List.nodup_finRange 19) (List.mem_finRange c)
      (fun y hy => ?_) rfl (decide_eq_true h)).trans (by simp)
    exact decide_eq_false fun hx => hx.2 (ho y hy).symm
  · rename_i h
    refine List.countP_eq_zero.mpr fun y _ hy => ?_
    have hy := of_decide_eq_true hy
    by_cases hyc : y = c
    · subst hyc; exact h hy
    · exact hy.2 (ho y hyc).symm

/-- What an account of the bumps says of ALARM where it shows one bump. -/
theorem alarm_bumped {s t : State} (h : AttnBumped [] s t) (h1 : bumpsShown s t clsAlarm = 1) :
    t.xu.attn[clsAlarm].count = s.xu.attn[clsAlarm].count + 1 ∧ t.xu.attn[clsAlarm].pending = true := by
  rw [h clsAlarm 1 (by rw [h1]; rfl)]
  exact ⟨rfl, Bool.or_true _⟩

/-- What an account of the bumps says of ALARM where it shows none. -/
theorem alarm_same {s t : State} (h : AttnBumped [] s t) (h0 : bumpsShown s t clsAlarm = 0) :
    t.xu.attn[clsAlarm] = s.xu.attn[clsAlarm] := by
  rw [h clsAlarm 0 (by rw [h0]; rfl)]
  simp

/-- Nothing bumped where entries keep their states, whatever else of them changes. -/
theorem attnBumped_sameStates {s t : State} (hx : t.xu = s.xu)
    (he : ∀ y : AlarmCode, t.alu.entries[y].state = s.alu.entries[y].state)
    (hq : t.qsu.selected = s.qsu.selected) (hp : t.ptu.ports = s.ptu.ports) : AttnBumped [] s t := by
  rintro d n rfl
  have h0 : bumpsShown s t d = 0 := by
    unfold bumpsShown
    simp only [hx, hq, hp]
    simpa using fun _ _ (y : AlarmCode) _ => (he y).symm
  rw [hx, h0]
  simp

theorem changeAlarm_xu (c : AlarmCode) (st : AlarmState) (l : Label) (s : State) :
    (changeAlarm c st l s).xu = if s.alu.entries[c].mask then s.xu else (bump clsAlarm s).xu := by
  have hm : (settlePins (s.updAlarm c (enterAlarm st l)).alu).entries[c].mask = s.alu.entries[c].mask :=
    (congrArg AlarmEntry.mask (updAt_self s.alu.entries c (enterAlarm st l)) :)
  unfold changeAlarm
  dsimp only
  rw [State.setAlu_alu, hm]
  split <;> rfl

theorem pinsSettled_of_pinsOk {s : State} (h : PinsOk s.alu) : PinsSettled s := by
  obtain ⟨h1, h2, h3⟩ := h
  exact ⟨(bool_iff_of_eq (pinWanted_iff ..)).mpr h1, (bool_iff_of_eq (pinWanted_iff ..)).mpr h2,
    (bool_iff_of_eq (pinWanted_iff ..)).mpr h3⟩

/-- A change of state accounts for its bump of ALARM (R154, R172). -/
theorem attnBumped_changeAlarm {s u : State} (c : AlarmCode) {st : AlarmState} (l : Label)
    (ha : u.xu.attn = s.xu.attn) (hx : u.xu.slots = s.xu.slots)
    (he : ∀ y : AlarmCode, u.alu.entries[y].state = s.alu.entries[y].state)
    (hne : st ≠ s.alu.entries[c].state) (hq : u.qsu.selected = s.qsu.selected)
    (hp : u.ptu.ports = s.ptu.ports) : AttnBumped [] s (changeAlarm c st l u) := by
  have hself : (changeAlarm c st l u).alu.entries[c] = enterAlarm st l u.alu.entries[c] := by
    rw [changeAlarm_entries, updAt_self]
  have halarm : bumpsShown s (changeAlarm c st l u) clsAlarm
      = if u.alu.entries[c].mask then 0 else 1 := by
    rw [bumpsShown_alarm c fun y hy => by rw [changeAlarm_entries, updAt_ne _ _ (Ne.symm hy), he y], hself]
    cases hm : u.alu.entries[c].mask
    · exact if_pos ⟨hm, hne.symm⟩
    · exact if_neg fun h => Bool.noConfusion (hm.symm.trans h.1)
  have hxu := changeAlarm_xu c st l u
  have hslots : (changeAlarm c st l u).xu.slots = s.xu.slots := by
    rw [hxu, ← hx]; split <;> rfl
  have hother : ∀ d, d ≠ clsAlarm → bumpsShown s (changeAlarm c st l u) d = 0 := by
    intro d hd
    have h0 := bumpsShown_of_eq (s := s) (t := (changeAlarm c st l u).setAlu s.alu) d hslots rfl
      (by rw [← hq]; simp) (by simp [hp])
    rw [← h0, bumpsShown, bumpsShown, if_neg (c := d = clsAlarm) hd, if_neg (c := d = clsAlarm) hd]
    rfl
  rintro d n rfl
  rw [hxu, ← ha]
  by_cases hd : d = clsAlarm
  · subst hd
    rw [halarm]
    cases u.alu.entries[c].mask
    · exact bump_attn_count ..
    · simp
  · rw [hother d hd]
    cases u.alu.entries[c].mask
    · exact (bump_attn_count ..).trans (by rw [if_neg (Ne.symm hd)]; rfl)
    · simp

/-- What one change of state of an entry of state `s` does, `u` standing for `s` up to the entry's
condition and the events taken (R154). -/
theorem changeAlarm_told {s u : State} (c : AlarmCode) {st : AlarmState} (l : Label) (hx : u.xu = s.xu)
    (he : ∀ y : AlarmCode, u.alu.entries[y].state = s.alu.entries[y].state)
    (hmask : u.alu.entries[c].mask = s.alu.entries[c].mask)
    (hne : st ≠ s.alu.entries[c].state) (hq : u.qsu.selected = s.qsu.selected)
    (hp : u.ptu.ports = s.ptu.ports) :
    PinsSettled (changeAlarm c st l u)
    ∧ (s.alu.entries[c].mask = false →
      (changeAlarm c st l u).xu.attn[clsAlarm].count = s.xu.attn[clsAlarm].count + 1
      ∧ (changeAlarm c st l u).xu.attn[clsAlarm].pending = true)
    ∧ (s.alu.entries[c].mask = true → (changeAlarm c st l u).xu = s.xu)
    ∧ ChangesXu s.xu.slots s.xu.unit [] s (changeAlarm c st l u) := by
  have hb := attnBumped_changeAlarm c l (congrArg Xu.attn hx) (congrArg Xu.slots hx) he hne hq hp
  have hxu := changeAlarm_xu c st l u
  refine ⟨pinsSettled_of_pinsOk (pinsOk_changeAlarm ..), fun hm => ?_, fun hm => ?_, ?_, hb⟩
  · refine alarm_bumped hb ?_
    rw [bumpsShown_alarm c fun y hy => by rw [changeAlarm_entries, updAt_ne _ _ (Ne.symm hy), he y],
      changeAlarm_entries, updAt_self]
    exact if_pos ⟨hmask.trans hm, hne.symm⟩
  · rw [hxu, hmask, hm]
    exact hx
  · rw [hxu, ← hx]
    split <;> rfl

/-! ### The persistence machine (R150 to R153) -/

/-- The steps of R154 on an entry, with the raise written by the states. -/
theorem enterAlarm_eq (st : AlarmState) (l : Label) (e : AlarmEntry) : enterAlarm st l e = { e with
    state := st
    count := 0
    raises := if st = .raised ∧ e.state ≠ .clearing ∧ e.state ≠ .raised
      then min (e.raises + 1) 65535 else e.raises
    acked := if st = .clear then false else e.acked
    stamp := e.stamp + 1
    lastChange := some l } := by
  have hr : isRaise e.state st = true ↔ st = .raised ∧ e.state ≠ .clearing ∧ e.state ≠ .raised := by
    cases st <;> cases e.state <;> decide
  simp only [enterAlarm, hr]
  rfl

/-- A change of presence always takes an entry to another state. -/
theorem stateByCondition_ne {e : AlarmEntry} {b : Bool} {st : AlarmState}
    (h : stateByCondition e b = some st) : st ≠ e.state := by
  unfold stateByCondition at h
  rintro rfl
  cases hs : e.state <;> cases b <;> simp [hs] at h <;> split at h <;> cases h

theorem raiseDue_iff (e : AlarmEntry) :
    raiseDue e = true ↔ e.state = .raising ∧ e.raiseDelay ≤ e.count := by
  simp [raiseDue]

theorem clearDue_iff (e : AlarmEntry) :
    clearDue e = true ↔ e.state = .clearing ∧ e.clearDelay ≤ e.count := by
  simp [clearDue]

/-- No expiry of an entry is due while its count is below the delay that it waits for. -/
theorem expiryDue_false {e : AlarmEntry} (hr : e.state = .raising → e.count < e.raiseDelay)
    (hc : e.state = .clearing → e.count < e.clearDelay) : expiryDue e = false := by
  rw [expiryDue, Bool.or_eq_false_iff, ← Bool.not_eq_true, ← Bool.not_eq_true, raiseDue_iff, clearDue_iff]
  exact ⟨fun h => absurd (hr h.1) (Nat.not_lt.mpr h.2), fun h => absurd (hc h.1) (Nat.not_lt.mpr h.2)⟩

theorem takeCondition_front {s : State} {c : AlarmCode} {b : Bool} {rest : List CondChange}
    (hd : expiryDue s.alu.entries[c] = false) (hw : s.wires.conds = ⟨c, b⟩ :: rest) : takeCondition c s
      = acceptCondition c b (s.setWires { s.wires with conds := rest }) := by
  unfold takeCondition
  rw [hd, hw, takeFirst_cons rest (beq_self_eq_true c)]
  rfl

theorem acceptCondition_held {s : State} {c : AlarmCode} {b : Bool}
    (h : s.alu.entries[c].condition = b) : acceptCondition c b s = s := if_pos h

/-- The entry with a changed presence. -/
def withCondition (c : AlarmCode) (b : Bool) (s : State) : State :=
  s.updAlarm c fun e => { e with condition := b }

theorem withCondition_self (c : AlarmCode) (b : Bool) (s : State) :
    (withCondition c b s).alu.entries[c] = { s.alu.entries[c] with condition := b } := updAt_self ..

theorem withCondition_state (c : AlarmCode) (b : Bool) (s : State) (y : AlarmCode) :
    (withCondition c b s).alu.entries[y].state = s.alu.entries[y].state := by
  refine (congrArg AlarmEntry.state (updAt_get ..)).trans ?_
  split
  · rename_i h; subst h; rfl
  · rfl

theorem acceptCondition_kept {s : State} {c : AlarmCode} {b : Bool}
    (h : s.alu.entries[c].condition ≠ b) (hst : stateByCondition s.alu.entries[c] b = none) :
    acceptCondition c b s = withCondition c b s := by
  have hst' : stateByCondition (withCondition c b s).alu.entries[c] b = none := by
    rw [withCondition_self]; exact hst
  unfold withCondition at hst' ⊢
  simp only [acceptCondition, if_neg h, hst']

theorem acceptCondition_moved {s : State} {c : AlarmCode} {b : Bool} {st : AlarmState}
    (h : s.alu.entries[c].condition ≠ b) (hst : stateByCondition s.alu.entries[c] b = some st) :
    acceptCondition c b s = changeAlarm c st s.tsu.label (withCondition c b s) := by
  have hst' : stateByCondition (withCondition c b s).alu.entries[c] b = some st := by
    rw [withCondition_self]; exact hst
  unfold withCondition at hst' ⊢
  simp only [acceptCondition, if_neg h, hst', State.updAlarm_tsu]

theorem changeAlarm_withCondition_entries (c : AlarmCode) (b : Bool) (st : AlarmState) (l : Label) (s : State) :
    (changeAlarm c st l (withCondition c b s)).alu.entries
      = s.alu.entries.set c (enterAlarm st l { s.alu.entries[c] with condition := b }) := by
  rw [changeAlarm_entries]
  simp [withCondition, State.updAlarm, updAt]

/-- A change of condition taken with no expiry due (R150 to R154). -/
theorem conditionChange_told {s : State} {c : AlarmCode} {b : Bool} {rest : List CondChange} {t : State}
    (ht : t = acceptCondition c b (s.setWires { s.wires with conds := rest })) :
    (s.alu.entries[c].condition = b → t.alu = s.alu ∧ t.xu = s.xu)
    ∧ (∀ st, s.alu.entries[c].condition = !b → stateByCondition s.alu.entries[c] b = some st →
      t.alu.entries = s.alu.entries.set c
        (enterAlarm st s.tsu.label { s.alu.entries[c] with condition := b }))
    ∧ (t.alu.entries[c].state ≠ s.alu.entries[c].state → PinsSettled t
        ∧ (s.alu.entries[c].mask = false → t.xu.attn[clsAlarm].count = s.xu.attn[clsAlarm].count + 1
          ∧ t.xu.attn[clsAlarm].pending = true))
    ∧ (s.alu.entries[c].mask = true ∨ t.alu.entries[c].state = s.alu.entries[c].state → t.xu = s.xu)
    ∧ ChangesXu s.xu.slots s.xu.unit [] s t := by
  subst ht
  by_cases hc : s.alu.entries[c].condition = b
  · rw [acceptCondition_held (by exact hc)]
    refine ⟨fun _ => ⟨rfl, rfl⟩, fun st h => ?_, fun h => absurd rfl h, fun _ => rfl, rfl,
      attnBumped_none rfl rfl rfl rfl fun _ => rfl⟩
    rw [hc] at h
    exact absurd h (Bool.self_ne_not b)
  · refine ⟨fun h => absurd h hc, ?_⟩
    rcases hst : stateByCondition s.alu.entries[c] b with _ | st
    · rw [acceptCondition_kept (by exact hc) (by exact hst)]
      exact ⟨nofun, fun h => absurd (withCondition_state c b _ c) h, fun _ => rfl, rfl,
        attnBumped_sameStates rfl (withCondition_state c b _) rfl rfl⟩
    · rw [acceptCondition_moved (by exact hc) (by exact hst)]
      have hne := stateByCondition_ne hst
      have hentries := changeAlarm_withCondition_entries c b st s.tsu.label
        (s.setWires { s.wires with conds := rest })
      obtain ⟨hpins, hbump, hmasked, hxu⟩ := changeAlarm_told (s := s)
        (u := withCondition c b (s.setWires { s.wires with conds := rest })) c s.tsu.label rfl
        (withCondition_state c b _) (congrArg AlarmEntry.mask (withCondition_self c b _) :) hne rfl rfl
      have hself : (changeAlarm c st s.tsu.label
          (withCondition c b (s.setWires { s.wires with conds := rest }))).alu.entries[c].state = st := by
        rw [changeAlarm_entries, updAt_self]; rfl
      refine ⟨?_, fun _ => ⟨hpins, hbump⟩, fun h => h.elim hmasked fun h => ?_, hxu⟩
      · rintro _ - ⟨⟩
        exact hentries
      · exact absurd (hself.symm.trans h) hne

/-- An expiry taken (R152 to R154). -/
theorem expiry_told {s t : State} {c : AlarmCode} {st : AlarmState} (ht : t = changeAlarm c st s.tsu.label s)
    (hne : st ≠ s.alu.entries[c].state) :
    t.alu.entries = s.alu.entries.set c (enterAlarm st s.tsu.label s.alu.entries[c]) ∧ PinsSettled t
    ∧ (s.alu.entries[c].mask = false → t.xu.attn[clsAlarm].count = s.xu.attn[clsAlarm].count + 1)
    ∧ (s.alu.entries[c].mask = true → t.xu = s.xu) ∧ ChangesXu s.xu.slots s.xu.unit [] s t
    ∧ KeepsAllBut [.alu, .xu] s t := by
  subst ht
  obtain ⟨hpins, hbump, hmasked, hxu⟩ := changeAlarm_told (s := s) (u := s) c s.tsu.label rfl
    (fun _ => rfl) rfl hne rfl rfl
  exact ⟨changeAlarm_entries .., hpins, fun h => (hbump h).1, hmasked, hxu, changeAlarm_frame ..⟩

theorem aluLabel_nil {s : State} (h : s.wires.aluBnd = []) : aluLabel s = s.tsu.label := by
  rw [aluLabel, h]; rfl

theorem countAlarm_eq (e : AlarmEntry) : countAlarm e = { e with
    count := if e.state = .raising ∨ e.state = .clearing then min (e.count + 1) 255 else e.count } := by
  unfold countAlarm
  split <;> rfl

/-- Settles O55. -/
theorem alarmsPersist : Obligations.AlarmsPersist := by
  intro s c e enter he henter
  have hto : ∀ b st, enterAlarm st s.tsu.label { e with condition := b } = enter b st := fun b st => by
    rw [henter, enterAlarm_eq]
  subst he
  refine ⟨fun hr hc b rest hw => ?_, fun hs hd hw => ?_, fun hs hd hw => ?_, fun b rest hw hdue => ?_⟩
  · have htake := takeCondition_front (expiryDue_false hr hc) hw
    have hframe := takeCondition_frame c s
    have hwires : (acceptCondition c b (s.setWires { s.wires with conds := rest })).wires
        = { s.wires with conds := rest } :=
      (acceptCondition_frame c b (s.setWires { s.wires with conds := rest })).wires_eq (by decide)
    rw [htake] at hframe
    generalize hu : acceptCondition c b (s.setWires { s.wires with conds := rest }) = t
      at htake hframe hwires
    obtain ⟨hsame, hmove, hstate, hxu, hchange⟩ := conditionChange_told hu.symm
    simp only [hto] at hmove
    refine ⟨t, congrArg Host.Outcome.next htake, hsame, ?_, ?_, ?_, ?_, hstate, hxu, hchange, hwires, hframe⟩
    · rintro hcond rfl hs
      exact hmove _ hcond (by simp only [stateByCondition, hs])
    · rintro hcond rfl hs
      exact hmove _ hcond (by simp only [stateByCondition, hs])
    · rintro hcond rfl hs
      exact hmove _ hcond (by simp only [stateByCondition, hs])
    · rintro hcond rfl hs
      exact hmove _ hcond (by simp only [stateByCondition, hs])
  · have ht : takeRaiseExpiry c s = changeAlarm c .raised s.tsu.label s := by
      rw [takeRaiseExpiry, if_pos ((raiseDue_iff _).mpr ⟨hs, hd⟩), aluLabel_nil hw]
    rw [← hto]
    exact ⟨_, congrArg Host.Outcome.next ht, expiry_told rfl (by rw [hs]; nofun)⟩
  · have ht : takeClearExpiry c s = changeAlarm c .clear s.tsu.label s := by
      rw [takeClearExpiry, if_pos ((clearDue_iff _).mpr ⟨hs, hd⟩), aluLabel_nil hw]
    rw [← hto]
    exact ⟨_, congrArg Host.Outcome.next ht, expiry_told rfl (by rw [hs]; nofun)⟩
  · have hany : anyExpiryDue s.alu = false := by
      refine List.any_eq_false.mpr fun x _ hx => ?_
      rw [expiryDue_false (hdue x).1 (hdue x).2] at hx
      cases hx
    have ht : takeAluBoundary s = (s.setWires { s.wires with aluBnd := rest }).setAlu
        { s.alu with entries := s.alu.entries.map countAlarm } := by
      unfold takeAluBoundary
      rw [hany, hw]
      rfl
    refine ⟨_, congrArg Host.Outcome.next ht, ?_, rfl, by simp [KeepsAllBut]⟩
    rw [← countAlarm_eq]
    exact Vector.getElem_map ..

/-! ### CONFIGURE-ALARM (R155, R156, R159) -/

theorem asIndex_ofNat {n : Nat} (hn : n ≤ 65536) {w : Word} {i : Fin n} (h : w = BitVec.ofNat 16 i.val) :
    asIndex n w = some i := by
  have hi := i.isLt
  refine asIndex_eq_some ?_
  rw [h, BitVec.toNat_ofNat]
  omega

/-- The severity that a parameter word names (R159). -/
def severityNamed (k : Nat) : Severity :=
  if k = 0 then .critical else if k = 1 then .major else if k = 2 then .minor else .warning

theorem severityOf_eq_some {w : Word} {v : Severity} :
    severityOf w = some v ↔ w.toNat ≤ 3 ∧ v = severityNamed w.toNat := by
  by_cases h : w.toNat ≤ 3
  · have hw : w = 0 ∨ w = 1 ∨ w = 2 ∨ w = 3 := by bv_omega
    rcases hw with rfl | rfl | rfl | rfl <;> simp [severityOf, severityNamed, eq_comm (a := v)]
  · have hw : w ≠ 0 ∧ w ≠ 1 ∧ w ≠ 2 ∧ w ≠ 3 := by bv_omega
    obtain ⟨h0, h1, h2, h3⟩ := hw
    rw [severityOf, if_neg h0, if_neg h1, if_neg h2, if_neg h3]
    exact iff_of_false nofun fun hx => h hx.1

/-- Every parameter of a CONFIGURE-ALARM but its code is in range (R159). -/
def AlarmParamsGood (p : Params) : Prop :=
  Params.n1 p 1 ≤ 3 ∧ Params.n1 p 2 ≤ 1 ∧ Params.n1 p 3 ≤ 255 ∧ Params.n1 p 4 ≤ 255

/-- What a CONFIGURE-ALARM names for the entry of code `c`. -/
def namedAlarmParams (p : Params) (c : AlarmCode) : AlarmParams :=
  ⟨c, severityNamed (Params.n1 p 1), Params.w p 2 == 1, Params.n1 p 3, Params.n1 p 4⟩

/-- A CONFIGURE-ALARM gives the named parameters exactly where each is in range. -/
theorem alarmParamsOf_eq_some {p : Params} {c : AlarmCode} {m : AlarmParams}
    (hi : asIndex 19 (Params.w p 0) = some c) :
    alarmParamsOf p = some m ↔ AlarmParamsGood p ∧ m = namedAlarmParams p c := by
  simp only [alarmParamsOf, hi, Option.bind_eq_bind, Option.bind_some, Option.bind_eq_some_iff,
    severityOf_eq_some, flag_eq_some_iff, inRange_eq_some_iff, AlarmParamsGood, namedAlarmParams,
    Option.some.injEq]
  constructor
  · rintro ⟨v, ⟨hv, rfl⟩, b, ⟨hb, rfl⟩, r, ⟨rfl, -, hr⟩, k, ⟨rfl, -, hk⟩, rfl⟩
    exact ⟨⟨hv, hb, hr, hk⟩, rfl⟩
  · rintro ⟨⟨hv, hb, hr, hk⟩, rfl⟩
    exact ⟨_, ⟨hv, rfl⟩, _, ⟨hb, rfl⟩, _, ⟨rfl, Nat.zero_le _, hr⟩, _, ⟨rfl, Nat.zero_le _, hk⟩, rfl⟩

theorem alarmParamsOf_noIndex {p : Params} (hi : asIndex 19 (Params.w p 0) = none) :
    alarmParamsOf p = none := by
  simp only [alarmParamsOf, hi]
  rfl

/-- An entry after a configuration: a wait that the new delay ends is ended (R159). -/
def configuredEntry (m : AlarmParams) (l : Label) (e : AlarmEntry) : AlarmEntry :=
  if raiseDue (configureEntry m e) then enterAlarm .raised l (configureEntry m e)
  else if clearDue (configureEntry m e) then enterAlarm .clear l (configureEntry m e)
  else configureEntry m e

/-- The configuration replaced and the pins settled, before a wait is ended. -/
def configured (m : AlarmParams) (s : State) : State :=
  (s.updAlarm m.code (configureEntry m)).setAlu (settlePins (s.updAlarm m.code (configureEntry m)).alu)

theorem configured_entries (m : AlarmParams) (s : State) :
    (configured m s).alu.entries = updAt s.alu.entries m.code (configureEntry m) := rfl

theorem configured_self (m : AlarmParams) (s : State) :
    (configured m s).alu.entries[m.code] = configureEntry m s.alu.entries[m.code] := updAt_self ..

theorem configured_state (m : AlarmParams) (s : State) (y : AlarmCode) :
    (configured m s).alu.entries[y].state = s.alu.entries[y].state := by
  refine (congrArg AlarmEntry.state (updAt_get ..)).trans ?_
  split
  · rename_i h; subst h; rfl
  · rfl

/-- The three things that a configuration can do to the wait of its entry (R159). -/
theorem applyAlarmConfig_cases (m : AlarmParams) (s : State) :
    raiseDue (configureEntry m s.alu.entries[m.code]) = true
      ∧ applyAlarmConfig m s = changeAlarm m.code .raised s.tsu.label (configured m s)
    ∨ clearDue (configureEntry m s.alu.entries[m.code]) = true
      ∧ applyAlarmConfig m s = changeAlarm m.code .clear s.tsu.label (configured m s)
    ∨ raiseDue (configureEntry m s.alu.entries[m.code]) = false
      ∧ clearDue (configureEntry m s.alu.entries[m.code]) = false
      ∧ applyAlarmConfig m s = configured m s := by
  have happly : applyAlarmConfig m s
      = if raiseDue (configured m s).alu.entries[m.code] then
          changeAlarm m.code .raised s.tsu.label (configured m s)
        else if clearDue (configured m s).alu.entries[m.code] then
          changeAlarm m.code .clear s.tsu.label (configured m s)
        else configured m s := rfl
  rw [configured_self] at happly
  rw [happly]
  cases hr : raiseDue (configureEntry m s.alu.entries[m.code])
  · cases hc : clearDue (configureEntry m s.alu.entries[m.code])
    · exact .inr (.inr ⟨rfl, rfl, rfl⟩)
    · exact .inr (.inl ⟨rfl, rfl⟩)
  · exact .inl ⟨rfl, rfl⟩

theorem changeAlarm_configured_entries (m : AlarmParams) (st : AlarmState) (l : Label) (s : State) :
    (changeAlarm m.code st l (configured m s)).alu.entries
      = s.alu.entries.set m.code (enterAlarm st l (configureEntry m s.alu.entries[m.code])) := by
  rw [changeAlarm_entries, configured_entries]
  simp [updAt]

theorem applyAlarmConfig_entries (m : AlarmParams) (s : State) : (applyAlarmConfig m s).alu.entries
    = s.alu.entries.set m.code (configuredEntry m s.tsu.label s.alu.entries[m.code]) := by
  unfold configuredEntry
  obtain ⟨hr, h⟩ | ⟨hc, h⟩ | ⟨hr, hc, h⟩ := applyAlarmConfig_cases m s
  · rw [h, if_pos hr, changeAlarm_configured_entries]
  · have hr : raiseDue (configureEntry m s.alu.entries[m.code]) = false := by
      rw [← Bool.not_eq_true, raiseDue_iff, ((clearDue_iff _).mp hc).1]
      exact fun h => absurd h.1 nofun
    rw [h, hr, if_neg nofun, if_pos hc, changeAlarm_configured_entries]
  · rw [h, hr, hc]
    rfl

/-- A configuration accounts for the change of state that it causes (R154, R172). -/
theorem attnBumped_applyAlarmConfig (m : AlarmParams) (s : State) :
    AttnBumped [] s (applyAlarmConfig m s) := by
  have hchange : ∀ st, st ≠ s.alu.entries[m.code].state →
      AttnBumped [] s (changeAlarm m.code st s.tsu.label (configured m s)) := fun st hne =>
    attnBumped_changeAlarm m.code s.tsu.label rfl rfl (configured_state m s) hne rfl rfl
  obtain ⟨hr, h⟩ | ⟨hc, h⟩ | ⟨-, -, h⟩ := applyAlarmConfig_cases m s <;> rw [h]
  · have hs : s.alu.entries[m.code].state = .raising := ((raiseDue_iff _).mp hr).1
    exact hchange _ (by rw [hs]; nofun)
  · have hs : s.alu.entries[m.code].state = .clearing := ((clearDue_iff _).mp hc).1
    exact hchange _ (by rw [hs]; nofun)
  · exact attnBumped_sameStates rfl (configured_state m s) rfl rfl

theorem changeAlarm_xu_shape (c : AlarmCode) (st : AlarmState) (l : Label) (s : State) :
    (changeAlarm c st l s).xu = { s.xu with
      attn := (changeAlarm c st l s).xu.attn
      inta := (changeAlarm c st l s).xu.inta
      intb := (changeAlarm c st l s).xu.intb } := by
  rw [changeAlarm_xu]
  split <;> rfl

theorem applyAlarmConfig_xu (m : AlarmParams) (s : State) : (applyAlarmConfig m s).xu = { s.xu with
    attn := (applyAlarmConfig m s).xu.attn
    inta := (applyAlarmConfig m s).xu.inta
    intb := (applyAlarmConfig m s).xu.intb } := by
  obtain ⟨-, h⟩ | ⟨-, h⟩ | ⟨-, -, h⟩ := applyAlarmConfig_cases m s <;> rw [h]
  · exact changeAlarm_xu_shape ..
  · exact changeAlarm_xu_shape ..
  · rfl

/-- What a configuration leaves of its entry, by whether the new delay ends a wait (R154, R159). -/
theorem configuredEntry_fields (m : AlarmParams) (l : Label) (e : AlarmEntry) {x : AlarmEntry}
    (hx : x = configuredEntry m l e) {ended : Prop}
    (hended : ended ↔ e.state = .raising ∧ m.raiseDelay ≤ e.count
      ∨ e.state = .clearing ∧ m.clearDelay ≤ e.count) :
    (ended → e.state = .raising → x.state = .raised ∧ x.acked = e.acked
      ∧ x.raises = min (e.raises + 1) 65535)
    ∧ (ended → e.state = .clearing → x.state = .clear ∧ x.acked = false ∧ x.raises = e.raises)
    ∧ (ended → x.count = 0 ∧ x.stamp = e.stamp + 1 ∧ x.lastChange = some l)
    ∧ (ended → x.state ≠ e.state)
    ∧ (¬ended → x.state = e.state ∧ x.count = e.count ∧ x.acked = e.acked
      ∧ x.raises = e.raises ∧ x.stamp = e.stamp ∧ x.lastChange = e.lastChange) := by
  have hr := raiseDue_iff (configureEntry m e)
  have hc := clearDue_iff (configureEntry m e)
  subst hx
  unfold configuredEntry
  by_cases hraise : raiseDue (configureEntry m e) = true
  · obtain ⟨hs, hd⟩ := hr.mp hraise
    have hs : e.state = .raising := hs
    have hyes : ended := hended.mpr (.inl ⟨hs, hd⟩)
    rw [if_pos hraise, enterAlarm_eq]
    simp [hyes, configureEntry, hs]
  · rw [if_neg hraise]
    by_cases hclear : clearDue (configureEntry m e) = true
    · obtain ⟨hs, hd⟩ := hc.mp hclear
      have hs : e.state = .clearing := hs
      have hyes : ended := hended.mpr (.inr ⟨hs, hd⟩)
      rw [if_pos hclear, enterAlarm_eq]
      simp [hyes, configureEntry, hs]
    · have hno : ¬ended := fun h => (hended.mp h).elim (fun h => hraise (hr.mpr h)) fun h =>
        hclear (hc.mpr h)
      rw [if_neg hclear]
      exact ⟨fun h => absurd h hno, fun h => absurd h hno, fun h => absurd h hno, fun h => absurd h hno,
        fun _ => ⟨rfl, rfl, rfl, rfl, rfl, rfl⟩⟩

theorem configuredEntry_kept (m : AlarmParams) (l : Label) (e : AlarmEntry) :
    (configuredEntry m l e).severity = m.severity ∧ (configuredEntry m l e).mask = m.mask
    ∧ (configuredEntry m l e).raiseDelay = m.raiseDelay ∧ (configuredEntry m l e).clearDelay = m.clearDelay
    ∧ (configuredEntry m l e).condition = e.condition ∧ (configuredEntry m l e).ackWord = e.ackWord := by
  unfold configuredEntry
  split
  · exact ⟨rfl, rfl, rfl, rfl, rfl, rfl⟩
  · split <;> exact ⟨rfl, rfl, rfl, rfl, rfl, rfl⟩

theorem pinsOk_applied (n : Slot) (k : Completion) (m : AlarmParams) (s : State) :
    PinsSettled (completeNow n k (applyAlarmConfig m s)) :=
  pinsSettled_of_pinsOk (by rw [completeNow_alu]; exact pinsOk_applyAlarmConfig m s)

theorem exec_configureAlarm {s : State} {n : Slot} (hh : Held n 14 s)
    (hw : ∀ m, alarmParamsOf s.xu.slots[n].params = some m →
      expiryDue s.alu.entries[m.code] = false) : exec .configureAlarm s
      = .next (takeConfigureAlarm n s.xu.slots[n].params (handEmptied s)) := by
  have hwait : configAlarmWaits s = false := by
    unfold configAlarmWaits
    simp only [heldSlot_held hh]
    rcases hp : alarmParamsOf s.xu.slots[n].params with _ | m
    · rfl
    · exact hw m hp
  exact congrArg Host.Outcome.next
    ((if_neg (by rw [hwait]; nofun)).trans (takeRequest_held takeConfigureAlarm hh))

theorem configureAlarm_invalid {s : State} {n : Slot} (hh : Held n 14 s)
    (hp : alarmParamsOf s.xu.slots[n].params = none) : exec .configureAlarm s
      = .next (completeNow n .invalid (handEmptied s)) := by
  rw [exec_configureAlarm hh fun m hm => by rw [hp] at hm; cases hm]
  simp only [takeConfigureAlarm, hp]

/-- ALARM_ACK (R157). -/
theorem alarmAck_told (s : State) (c : AlarmCode) (v : Word) : ∃ t, exec (.alarmAck c v) s = .next t
    ∧ t.alu = { s.alu with entries := s.alu.entries.set c { s.alu.entries[c] with
        ackWord := v
        acked := s.alu.entries[c].acked || (decide (v = s.alu.entries[c].stamp)
          && decide (s.alu.entries[c].state = .raised ∨ s.alu.entries[c].state = .clearing)) } }
    ∧ t.xu = { s.xu with latch := none } ∧ KeepsAllBut [.alu, .xu] s t := by
  refine ⟨_, rfl, ?_, rfl, by simp [KeepsAllBut, releaseLatch, setLatch]⟩
  rw [Bool.decide_or]
  rfl

/-- A CONFIGURE-ALARM in range applied (R155, R156, R159). -/
theorem configureAlarm_applies {s : State} {n : Slot} {m : AlarmParams} (hh : Held n 14 s)
    (hp : alarmParamsOf s.xu.slots[n].params = some m)
    (hd : expiryDue s.alu.entries[m.code] = false) :
    ∃ t, exec .configureAlarm s = .next t
    ∧ t.alu.entries = s.alu.entries.set m.code (configuredEntry m s.tsu.label s.alu.entries[m.code])
    ∧ PinsSettled t ∧ CompletesHeld n 1 s.tsu.label s t ∧ KeepsAllBut [.alu, .xu] s t := by
  have ht : takeConfigureAlarm n s.xu.slots[n].params (handEmptied s)
      = completeNow n .ok (applyAlarmConfig m (handEmptied s)) := by
    simp only [takeConfigureAlarm, hp]
  refine ⟨_, exec_configureAlarm hh fun m' hm' => ?_, ?_⟩
  · rw [hp] at hm'
    cases hm'
    exact hd
  · rw [ht]
    refine ⟨?_, pinsOk_applied .., completesHeld_after .ok hh (applyAlarmConfig_xu m (handEmptied s))
        (attnBumped_from rfl rfl rfl rfl rfl (attnBumped_applyAlarmConfig m (handEmptied s)))
        (congrArg Tsu.label ((applyAlarmConfig_frame m (handEmptied s)).tsu_eq (by decide))),
      (((handEmptied_frame s).mono (by decide)).trans (applyAlarmConfig_frame m _)).trans
        ((completeNow_frame ..).mono (by decide))⟩
    rw [completeNow_alu]
    exact applyAlarmConfig_entries m (handEmptied s)

/-- Settles O56. -/
theorem alarmsAreAcknowledgedAndConfigured : Obligations.AlarmsAreAcknowledgedAndConfigured := by
  refine ⟨alarmAck_told, ?_, fun s n hh hw => ?_⟩
  · intro s n p c e v good hh hp hw he hr hc hgood hv
    subst hp
    have hi : asIndex 19 (Params.w s.xu.slots[n].params 0) = some c := asIndex_ofNat (by decide) hw
    have hsome := fun m => alarmParamsOf_eq_some (m := m) hi
    by_cases hg : good
    · have hm := (hsome _).mpr ⟨hgood.mp hg, rfl⟩
      obtain ⟨t, hexec, hentries, hpins, hdone, hframe⟩ := configureAlarm_applies hh hm
        (he ▸ expiryDue_false hr hc :)
      have hself : t.alu.entries[c]
          = configuredEntry (namedAlarmParams s.xu.slots[n].params c) s.tsu.label e := by
        rw [he, hentries]
        exact Vector.getElem_set_self ..
      have hother : ∀ y : AlarmCode, y ≠ c → t.alu.entries[y] = s.alu.entries[y] := fun y hy => by
        rw [hentries]
        exact Vector.getElem_set_ne c.isLt y.isLt fun h => hy (Fin.ext h.symm)
      have halarm := bumpsShown_alarm (s := s) (t := t) c fun y hy => by rw [hother y hy]
      obtain ⟨hsev, hmask, hrd, hcd, hcond, hack⟩ :=
        configuredEntry_kept (namedAlarmParams s.xu.slots[n].params c) s.tsu.label e
      refine ⟨t, _, hexec, rfl, fun h => absurd hg h, fun _ => ?_, hother, hframe⟩
      rw [← hself] at hsev hmask hrd hcd hcond hack
      have hmaskIff : t.alu.entries[c].mask = true ↔ Params.n1 s.xu.slots[n].params 2 = 1 := by
        rw [hmask]
        exact beq_iff_eq.trans ⟨fun h => congrArg BitVec.toNat h, fun h => BitVec.eq_of_toNat_eq h⟩
      refine ⟨hsev.trans hv.symm, hmaskIff, hrd, hcd, hcond, hack, fun ended hended => ?_, hpins, hdone⟩
      obtain ⟨hraised, hclear, hcount, hmoved, hkept⟩ := configuredEntry_fields _ _ e hself hended
      refine ⟨hraised, hclear, hcount, fun hy h0 => ?_, fun h => ?_, hkept⟩
      · refine alarm_bumped hdone.1.2 (halarm.trans (if_pos ⟨?_, ?_⟩))
        · rw [← Bool.not_eq_true, hmaskIff, h0]; decide
        · rw [← he]; exact (hmoved hy).symm
      · refine alarm_same hdone.1.2 (halarm.trans (if_neg fun hx => ?_))
        rcases h with hno | h1
        · exact hx.2 (by rw [← he]; exact (hkept hno).1.symm)
        · exact Bool.noConfusion (hx.1.symm.trans (hmaskIff.mpr h1))
    · have hnone : alarmParamsOf s.xu.slots[n].params = none := by
        rcases hm : alarmParamsOf s.xu.slots[n].params with _ | m
        · rfl
        · exact absurd (hgood.mpr ((hsome m).mp hm).1) hg
      refine ⟨_, _, configureAlarm_invalid hh hnone, rfl, fun _ =>
        ⟨by rw [completeNow_alu]; rfl, completeNow_held .invalid hh⟩, fun h => absurd h hg,
        fun y _ => by rw [completeNow_alu]; rfl,
        ((handEmptied_frame s).trans (completeNow_frame ..)).mono (by decide)⟩
  · rw [configureAlarm_invalid hh (alarmParamsOf_noIndex (asIndex_eq_none hw))]
    exact exec_turnsAway .invalid hh rfl

end Sys2Proof.Machine
end

section
/-! PROOFS. The port requests: the fields of a CONFIGURE-PORT by mode, its staging, and the checks and
the claim of a MEASURE-PORT-DELAY. -/

namespace Sys2Proof.Machine

open Sys2Proof.Safety Config

/-! ### The fields of a CONFIGURE-PORT (R120, R132) -/

theorem portModeOf_eq_some {w : Word} {v : PortMode} : portModeOf w = some v ↔ v.num = w.toNat := by
  by_cases h : w.toNat ≤ 3
  · have hw : w = 0 ∨ w = 1 ∨ w = 2 ∨ w = 3 := by bv_omega
    rcases hw with rfl | rfl | rfl | rfl <;> cases v <;> decide
  · have hw : w ≠ 0 ∧ w ≠ 1 ∧ w ≠ 2 ∧ w ≠ 3 := by bv_omega
    obtain ⟨h0, h1, h2, h3⟩ := hw
    rw [portModeOf, if_neg h0, if_neg h1, if_neg h2, if_neg h3]
    refine iff_of_false nofun fun hv => h ?_
    rw [← hv]
    cases v <;> decide

theorem polarityOf_eq_some {w : Word} {v : Polarity} : polarityOf w = some v ↔ v.num = w.toNat := by
  by_cases h : w.toNat ≤ 1
  · have hw : w = 0 ∨ w = 1 := by bv_omega
    rcases hw with rfl | rfl <;> cases v <;> decide
  · have hw : w ≠ 0 ∧ w ≠ 1 := by bv_omega
    rw [polarityOf, if_neg hw.1, if_neg hw.2]
    refine iff_of_false nofun fun hv => h ?_
    rw [← hv]
    cases v <;> decide

theorem squelchPolicyOf_eq_some {w : Word} {v : SquelchPolicy} :
    squelchPolicyOf w = some v ↔ v.num = w.toNat := by
  by_cases h : w.toNat ≤ 2
  · have hw : w = 0 ∨ w = 1 ∨ w = 2 := by bv_omega
    rcases hw with rfl | rfl | rfl <;> cases v <;> decide
  · have hw : w ≠ 0 ∧ w ≠ 1 ∧ w ≠ 2 := by bv_omega
    obtain ⟨h0, h1, h2⟩ := hw
    rw [squelchPolicyOf, if_neg h0, if_neg h1, if_neg h2]
    refine iff_of_false nofun fun hv => h ?_
    rw [← hv]
    cases v <;> decide

theorem pinLevelOf_eq_some {w : Word} {v : PinLevel} : pinLevelOf w = some v ↔ v.num = w.toNat := by
  by_cases h : w.toNat ≤ 2
  · have hw : w = 0 ∨ w = 1 ∨ w = 2 := by bv_omega
    rcases hw with rfl | rfl | rfl <;> cases v <;> decide
  · have hw : w ≠ 0 ∧ w ≠ 1 ∧ w ≠ 2 := by bv_omega
    obtain ⟨h0, h1, h2⟩ := hw
    rw [pinLevelOf, if_neg h0, if_neg h1, if_neg h2]
    refine iff_of_false nofun fun hv => h ?_
    rw [← hv]
    cases v <;> decide

theorem exists_polarity {k : Nat} : (∃ v : Polarity, v.num = k) ↔ k ≤ 1 :=
  ⟨by rintro ⟨v, rfl⟩; cases v <;> decide,
    fun h => by interval_cases k; exacts [⟨.normal, rfl⟩, ⟨.inverted, rfl⟩]⟩

theorem exists_squelchPolicy {k : Nat} : (∃ v : SquelchPolicy, v.num = k) ↔ k ≤ 2 :=
  ⟨by rintro ⟨v, rfl⟩; cases v <;> decide,
    fun h => by interval_cases k; exacts [⟨.runAlways, rfl⟩, ⟨.onBudget, rfl⟩, ⟨.unlocked, rfl⟩]⟩

theorem exists_pinLevel {k : Nat} : (∃ v : PinLevel, v.num = k) ↔ k ≤ 2 :=
  ⟨by rintro ⟨v, rfl⟩; cases v <;> decide,
    fun h => by interval_cases k; exacts [⟨.low, rfl⟩, ⟨.high, rfl⟩, ⟨.highZ, rfl⟩]⟩

theorem widthOf_eq_some {hi n : Nat} {x : Nat × Bool} :
    widthOf hi n = some x ↔ n ≠ 0 ∧ x = (min n hi, decide (hi < n)) := by
  unfold widthOf
  split <;> simp_all [eq_comm (a := x)]

theorem baudOf_eq_some {n x : Nat} :
    baudOf n = some x ↔ (n = 9600 ∨ n = 19200 ∨ n = 38400 ∨ n = 115200) ∧ x = n := by
  unfold baudOf
  split <;> simp_all [eq_comm (a := x)]

/-- The fields of a CONFIGURE-PORT that apply to a mode other than OFF are in range (R120). -/
def PortFieldsGood (p : Params) (mode : PortMode) : Prop :=
  (1000 ≤ Params.n3 p 12 ∧ Params.n3 p 12 ≤ 999999999999)
  ∧ (mode = .pulse ∨ mode = .timecode → Params.n2 p 5 ≠ 0)
  ∧ (mode = .frequency → 1 ≤ Params.n2 p 7 ∧ Params.n2 p 7 ≤ 25000000)
  ∧ (mode = .timecode → Params.n2 p 9 = 9600 ∨ Params.n2 p 9 = 19200 ∨ Params.n2 p 9 = 38400
    ∨ Params.n2 p 9 = 115200)

/-- The width that a CONFIGURE-PORT gives a mode, and whether it was clamped (R120, R132). -/
def namedWidth (p : Params) : PortMode → Nat × Bool
  | .pulse => (min (Params.n2 p 5) 500000000, decide (500000000 < Params.n2 p 5))
  | .timecode => (min (Params.n2 p 5) 10000000, decide (10000000 < Params.n2 p 5))
  | _ => (100000, false)

/-- The settings that a CONFIGURE-PORT names, a field of another mode at its default (R132). -/
def namedSettings (p : Params) (mode : PortMode) (polarity : Polarity) (policy : SquelchPolicy)
    (level : PinLevel) : PortSettings × Bool :=
  (⟨mode, polarity, clampAbs (Params.i2 p 3) compensationBound, (namedWidth p mode).1,
    if mode = .frequency then Params.n2 p 7 else 10000000,
    if mode = .timecode then Params.n2 p 9 else 9600, policy, Params.n3 p 12, level⟩,
    clampAbs (Params.i2 p 3) compensationBound != Params.i2 p 3 || (namedWidth p mode).2)

theorem portSettingsOf_off {p : Params} (h : Params.n1 p 1 = 0) :
    portSettingsOf p = some (defaultSettings, false) := by
  have hm : portModeOf (Params.w p 1) = some .off := portModeOf_eq_some.mpr h.symm
  simp [portSettingsOf, hm]

theorem portSettingsOf_noMode {p : Params} (h : 3 < Params.n1 p 1) : portSettingsOf p = none := by
  have hm : portModeOf (Params.w p 1) = none := by
    rcases hm : portModeOf (Params.w p 1) with _ | m
    · rfl
    · have hn : m.num = Params.n1 p 1 := portModeOf_eq_some.mp hm
      rw [← hn] at h
      cases m <;> exact absurd h (by decide)
  simp [portSettingsOf, hm]

/-- In a mode other than OFF a CONFIGURE-PORT gives the named settings exactly where each field is in
range. -/
theorem portSettingsOf_eq_some {p : Params} {mode : PortMode} {x : PortSettings × Bool}
    (hm : mode.num = Params.n1 p 1) (ho : mode ≠ .off) :
    portSettingsOf p = some x ↔ PortFieldsGood p mode
      ∧ ∃ (polarity : Polarity) (policy : SquelchPolicy) (level : PinLevel),
        polarity.num = Params.n1 p 2 ∧ policy.num = Params.n1 p 11 ∧ level.num = Params.n1 p 15
        ∧ x = namedSettings p mode polarity policy level := by
  have hm' : portModeOf (Params.w p 1) = some mode := portModeOf_eq_some.mpr hm
  cases mode <;>
    simp [portSettingsOf, hm', ho, Option.bind_eq_some_iff, polarityOf_eq_some, squelchPolicyOf_eq_some,
      pinLevelOf_eq_some, widthOf_eq_some, baudOf_eq_some, inRange_eq_some_iff, PortFieldsGood,
      namedSettings, namedWidth, defaultSettings, and_assoc, eq_comm (a := x)] <;> grind [Params.n1]

theorem exists_portMode {k : Nat} (h : k ≤ 3) : ∃ mode : PortMode, mode.num = k := by
  interval_cases k
  exacts [⟨.off, rfl⟩, ⟨.pulse, rfl⟩, ⟨.frequency, rfl⟩, ⟨.timecode, rfl⟩]

/-- A mode's fields in range, by the number of the mode. -/
theorem portFieldsGood_iff {p : Params} {mode : PortMode} (hm : mode.num = Params.n1 p 1) :
    PortFieldsGood p mode ↔ 1000 ≤ Params.n3 p 12 ∧ Params.n3 p 12 ≤ 999999999999
      ∧ (Params.n1 p 1 = 1 ∨ Params.n1 p 1 = 3 → Params.n2 p 5 ≠ 0)
      ∧ (Params.n1 p 1 = 2 → 1 ≤ Params.n2 p 7 ∧ Params.n2 p 7 ≤ 25000000)
      ∧ (Params.n1 p 1 = 3 → Params.n2 p 9 = 9600 ∨ Params.n2 p 9 = 19200
        ∨ Params.n2 p 9 = 38400 ∨ Params.n2 p 9 = 115200) := by
  rw [← hm]
  cases mode <;> simp [PortFieldsGood, PortMode.num, and_assoc]

/-- When a CONFIGURE-PORT is in range (R120). -/
theorem portSettingsOf_ne_none (p : Params) :
    portSettingsOf p ≠ none ↔ Params.n1 p 1 ≤ 3 ∧ (Params.n1 p 1 ≠ 0 →
      Params.n1 p 2 ≤ 1 ∧ Params.n1 p 11 ≤ 2 ∧ Params.n1 p 15 ≤ 2
      ∧ 1000 ≤ Params.n3 p 12 ∧ Params.n3 p 12 ≤ 999999999999
      ∧ (Params.n1 p 1 = 1 ∨ Params.n1 p 1 = 3 → Params.n2 p 5 ≠ 0)
      ∧ (Params.n1 p 1 = 2 → 1 ≤ Params.n2 p 7 ∧ Params.n2 p 7 ≤ 25000000)
      ∧ (Params.n1 p 1 = 3 → Params.n2 p 9 = 9600 ∨ Params.n2 p 9 = 19200
        ∨ Params.n2 p 9 = 38400 ∨ Params.n2 p 9 = 115200)) := by
  by_cases h3 : Params.n1 p 1 ≤ 3
  · by_cases h0 : Params.n1 p 1 = 0
    · rw [portSettingsOf_off h0]
      exact iff_of_true nofun ⟨h3, fun h => absurd h0 h⟩
    · obtain ⟨mode, hm⟩ := exists_portMode h3
      have ho : mode ≠ .off := by rintro rfl; exact h0 hm.symm
      rw [Option.ne_none_iff_exists', and_iff_right h3, forall_prop_of_true h0, ← exists_polarity,
        ← exists_squelchPolicy, ← exists_pinLevel, ← portFieldsGood_iff hm]
      constructor
      · rintro ⟨x, hx⟩
        obtain ⟨hgood, v, c, l, hv, hc, hl, -⟩ := (portSettingsOf_eq_some hm ho).mp hx
        exact ⟨⟨v, hv⟩, ⟨c, hc⟩, ⟨l, hl⟩, hgood⟩
      · rintro ⟨⟨v, hv⟩, ⟨c, hc⟩, ⟨l, hl⟩, hgood⟩
        exact ⟨_, (portSettingsOf_eq_some hm ho).mpr ⟨hgood, v, c, l, hv, hc, hl, rfl⟩⟩
  · rw [portSettingsOf_noMode (Nat.not_le.mp h3)]
    exact iff_of_false (fun h => h rfl) fun h => h3 h.1

theorem clampAbs_bne (x : Int) :
    (clampAbs x compensationBound != x) = decide (200000000 < x.natAbs) := clampAbs_ne_iff ..

/-- What a CONFIGURE-PORT in range holds, by its mode (R120, R132). -/
theorem portSettingsOf_fields {p : Params} {g : PortSettings} {clamped : Bool}
    (h : portSettingsOf p = some (g, clamped)) :
    (Params.n1 p 1 = 0 → clamped = false
      ∧ g = ⟨.off, .normal, 0, 100000, 10000000, 9600, .onBudget, 1100000, .low⟩)
    ∧ (Params.n1 p 1 ≠ 0 →
      g.polarity.num = Params.n1 p 2 ∧ g.policy.num = Params.n1 p 11
      ∧ g.level.num = Params.n1 p 15 ∧ g.limit = Params.n3 p 12
      ∧ g.compensation = max (-200000000) (min 200000000 (Params.i2 p 3)))
    ∧ (Params.n1 p 1 = 1 → g.mode = .pulse ∧ g.width = min (Params.n2 p 5) 500000000
        ∧ g.freq = 10000000 ∧ g.baud = 9600
        ∧ (clamped = true ↔ 200000000 < (Params.i2 p 3).natAbs ∨ 500000000 < Params.n2 p 5))
    ∧ (Params.n1 p 1 = 2 → g.mode = .frequency ∧ g.freq = Params.n2 p 7
        ∧ g.width = 100000 ∧ g.baud = 9600
        ∧ (clamped = true ↔ 200000000 < (Params.i2 p 3).natAbs))
    ∧ (Params.n1 p 1 = 3 → g.mode = .timecode ∧ g.width = min (Params.n2 p 5) 10000000
        ∧ g.baud = Params.n2 p 9 ∧ g.freq = 10000000
        ∧ (clamped = true ↔ 200000000 < (Params.i2 p 3).natAbs ∨ 10000000 < Params.n2 p 5)) := by
  by_cases h0 : Params.n1 p 1 = 0
  · rw [portSettingsOf_off h0] at h
    cases h
    rw [h0]
    exact ⟨fun _ => ⟨rfl, rfl⟩, fun h => absurd rfl h, nofun, nofun, nofun⟩
  · have h3 : Params.n1 p 1 ≤ 3 := ((portSettingsOf_ne_none p).mp (by rw [h]; nofun)).1
    obtain ⟨mode, hm⟩ := exists_portMode h3
    have ho : mode ≠ .off := by rintro rfl; exact h0 hm.symm
    obtain ⟨-, v, c, l, hv, hc, hl, hx⟩ := (portSettingsOf_eq_some hm ho).mp h
    cases hx
    refine ⟨fun h => absurd h h0, fun _ => ⟨hv, hc, hl, rfl, clampAbs_eq _⟩, ?_⟩
    rw [← hm, clampAbs_bne]
    cases mode
    · exact absurd rfl ho
    · refine ⟨fun _ => ⟨rfl, rfl, rfl, rfl, ?_⟩, nofun, nofun⟩
      simp [namedWidth]
    · refine ⟨nofun, fun _ => ⟨rfl, rfl, rfl, rfl, ?_⟩, nofun⟩
      simp [namedWidth]
    · refine ⟨nofun, nofun, fun _ => ⟨rfl, rfl, rfl, rfl, ?_⟩⟩
      simp [namedWidth]

/-! ### CONFIGURE-PORT (R132) -/

section ConfigurePort

variable {s : State} {n : Slot} {q : Port}

theorem configurePort_invalid (hp : portSettingsOf s.xu.slots[n].params = none) :
    takeConfigurePort n s.xu.slots[n].params (handEmptied s) = completeNow n .invalid (handEmptied s) := by
  unfold takeConfigurePort
  rw [hp]
  split <;> rfl

variable (hi : asIndex 12 (Params.w s.xu.slots[n].params 0) = some q)

include hi

theorem configurePort_busy (hp : portSettingsOf s.xu.slots[n].params ≠ none)
    (hm : s.ptu.ports[q].measuring ≠ none) :
    takeConfigurePort n s.xu.slots[n].params (handEmptied s) = completeNow n .busy (handEmptied s) := by
  obtain ⟨x, hx⟩ := Option.ne_none_iff_exists'.mp hp
  unfold takeConfigurePort
  rw [hi, hx]
  exact if_pos (Option.isSome_iff_ne_none.mpr hm)

/-- The settings staged, and the request of an earlier staging superseded. -/
theorem configurePort_stages {g : PortSettings} {clamped : Bool}
    (hp : portSettingsOf s.xu.slots[n].params = some (g, clamped)) (hm : s.ptu.ports[q].measuring = none) :
    takeConfigurePort n s.xu.slots[n].params (handEmptied s)
      = (supersedeStaging s.ptu.ports[q].staged (handEmptied s)).updPort q fun e =>
          { e with staged := some ⟨g, .request n, clamped⟩ } := by
  unfold takeConfigurePort
  rw [hi, hp]
  exact if_neg (by rw [show (handEmptied s).ptu.ports[q].measuring = none from hm]; nofun)

end ConfigurePort

/-- A staged request makes way for the new one: it completes SUPERSEDED where its slot is TAKEN (R132). -/
theorem supersedeStaging_told (staged : Option Staged) (s : State) :
    ((∀ h m c, staged ≠ some ⟨h, .request m, c⟩) → ParksHeld s (supersedeStaging staged (handEmptied s)))
    ∧ ∀ h m c, staged = some ⟨h, .request m, c⟩ →
      (s.xu.slots[m].state = .taken →
        ChangesXu (s.xu.slots.set m (doneSlot m 3 s.tsu.label s)) none [] s
          (supersedeStaging staged (handEmptied s))
        ∧ (supersedeStaging staged (handEmptied s)).xu.attn[clsDone].count = s.xu.attn[clsDone].count + 1
        ∧ (supersedeStaging staged (handEmptied s)).xu.attn[clsDone].pending = true)
      ∧ (s.xu.slots[m].state ≠ .taken → ParksHeld s (supersedeStaging staged (handEmptied s))) := by
  constructor
  · intro hno
    unfold supersedeStaging
    split
    · exact absurd rfl (hno _ _ _)
    · rfl
  · rintro h m c rfl
    exact ⟨superseded_changes, fun hm => congrArg State.xu (superseded_parks hm)⟩

theorem exec_configurePort {s : State} {n : Slot} (hh : Held n 12 s) :
    exec .configurePort s = .next (takeConfigurePort n s.xu.slots[n].params (handEmptied s)) :=
  congrArg Host.Outcome.next (takeRequest_held takeConfigurePort hh)

theorem changesXu_updPort {slots : Vector RequestSlot 16} {hand : Option Slot} {s t : State}
    (f : PortEntry → PortEntry) (hf : ∀ e, (f e).state = e.state) (p : Port)
    (h : ChangesXu slots hand [] s t) : ChangesXu slots hand [] s (t.updPort p f) :=
  ⟨h.1, attnBumped_of_same_states (u := t) rfl rfl rfl (fun q => updPort_states hf t p q) h.2⟩

/-- CONFIGURE-PORT for a port that there is (R132). -/
theorem configurePort_told (s : State) (n : Slot) (p : Vector Word 24) (q : Port) (hh : Held n 12 s)
    (hp : p = s.xu.slots[n].params) (hq : Params.w p 0 = BitVec.ofNat 16 q.val) :
    ∃ t, exec .configurePort s = .next t
    ∧ (portSettingsOf p = none → t.ptu = s.ptu ∧ CompletesHeld n 5 s.tsu.label s t)
    ∧ (portSettingsOf p ≠ none → s.ptu.ports[q].measuring ≠ none →
        t.ptu = s.ptu ∧ CompletesHeld n 4 s.tsu.label s t)
    ∧ (∀ g clamped, portSettingsOf p = some (g, clamped) → s.ptu.ports[q].measuring = none →
        t.ptu = { s.ptu with
          ports := s.ptu.ports.set q
            { s.ptu.ports[q] with staged := some ⟨g, .request n, clamped⟩ } }
        ∧ ((∀ h m c, s.ptu.ports[q].staged ≠ some ⟨h, .request m, c⟩) → ParksHeld s t)
        ∧ (∀ h m c, s.ptu.ports[q].staged = some ⟨h, .request m, c⟩ →
            (s.xu.slots[m].state = .taken →
              ChangesXu (s.xu.slots.set m (doneSlot m 3 s.tsu.label s)) none [] s t
              ∧ t.xu.attn[clsDone].count = s.xu.attn[clsDone].count + 1
              ∧ t.xu.attn[clsDone].pending = true)
            ∧ (s.xu.slots[m].state ≠ .taken → ParksHeld s t)))
    ∧ KeepsAllBut [.ptu, .xu] s t := by
  subst hp
  have hi : asIndex 12 (Params.w s.xu.slots[n].params 0) = some q := asIndex_ofNat (by decide) hq
  refine ⟨_, exec_configurePort hh, fun hnone => ?_, fun hsome hm => ?_, fun g clamped hsome hm => ?_,
    ((handEmptied_frame s).mono (by decide)).trans (takeConfigurePort_frame ..)⟩
  · rw [configurePort_invalid hnone]
    exact ⟨completeNow_ptu .., completeNow_held .invalid hh⟩
  · rw [configurePort_busy hi hsome hm]
    exact ⟨completeNow_ptu .., completeNow_held .busy hh⟩
  · rw [configurePort_stages hi hsome hm]
    obtain ⟨hpark, hold⟩ := supersedeStaging_told s.ptu.ports[q].staged s
    refine ⟨?_, hpark, fun h m c hst => ?_⟩
    · unfold State.updPort
      rw [State.setPtu_ptu, supersedeStaging_ptu]
      rfl
    · obtain ⟨htaken, hother⟩ := hold h m c hst
      exact ⟨fun ht => ⟨changesXu_updPort
        (fun e => { e with staged := some ⟨g, .request n, clamped⟩ }) (fun _ => rfl) q (htaken ht).1,
        (htaken ht).2⟩, hother⟩

/-! ### MEASURE-PORT-DELAY (R140, R141) -/

/-- The channel choice that a parameter word names (R140, R182). -/
def auxNamed (k : Nat) : AuxChoice := if k = 1 then .one 0 else if k = 2 then .one 1 else .any

theorem auxChoiceOf_eq_some {w : Word} {x : AuxChoice} :
    auxChoiceOf w = some x ↔ (1 ≤ w.toNat ∧ w.toNat ≤ 3) ∧ x = auxNamed w.toNat := by
  by_cases h : 1 ≤ w.toNat ∧ w.toNat ≤ 3
  · have hw : w = 1 ∨ w = 2 ∨ w = 3 := by bv_omega
    rcases hw with rfl | rfl | rfl <;> simp [auxChoiceOf, auxNamed, eq_comm (a := x)]
  · have hw : w ≠ 1 ∧ w ≠ 2 ∧ w ≠ 3 := by bv_omega
    obtain ⟨h1, h2, h3⟩ := hw
    rw [auxChoiceOf, if_neg h1, if_neg h2, if_neg h3]
    exact iff_of_false nofun fun hx => h hx.1

/-- Every parameter of a MEASURE-PORT-DELAY but its port is in range (R140). -/
def MeasureParamsGood (p : Params) : Prop :=
  (1 ≤ Params.n1 p 1 ∧ Params.n1 p 1 ≤ 3) ∧ (Params.i2 p 2).natAbs ≤ 200000000 ∧ Params.n1 p 4 ≤ 1

/-- What a MEASURE-PORT-DELAY names for port `q`. -/
def namedMeasure (p : Params) (q : Port) : MeasureParams :=
  ⟨q, auxNamed (Params.n1 p 1), Params.i2 p 2, Params.w p 4 == 1⟩

theorem measureParamsOf_eq_some {p : Params} {q : Port} {m : MeasureParams}
    (hi : asIndex 12 (Params.w p 0) = some q) :
    measureParamsOf p = some m ↔ MeasureParamsGood p ∧ m = namedMeasure p q := by
  have hfar : (-(compensationBound : Int) ≤ Params.i2 p 2 ∧ Params.i2 p 2 ≤ (compensationBound : Int))
      ↔ (Params.i2 p 2).natAbs ≤ 200000000 := by
    unfold compensationBound
    omega
  unfold measureParamsOf
  by_cases hf : (Params.i2 p 2).natAbs ≤ 200000000
  · simp only [hi, if_pos (hfar.mpr hf), Option.bind_eq_bind, Option.bind_some, Option.bind_eq_some_iff,
      auxChoiceOf_eq_some, flag_eq_some_iff, MeasureParamsGood, namedMeasure, Option.some.injEq]
    constructor
    · rintro ⟨x, ⟨hx, rfl⟩, b, ⟨hb, rfl⟩, rfl⟩
      exact ⟨⟨hx, hf, hb⟩, rfl⟩
    · rintro ⟨⟨hx, -, hb⟩, rfl⟩
      exact ⟨_, ⟨hx, rfl⟩, _, ⟨hb, rfl⟩, rfl⟩
  · simp only [hi, if_neg (mt hfar.mp hf), Option.bind_eq_bind, Option.bind_some]
    refine iff_of_false (fun h => ?_) fun h => hf h.1.2.1
    rcases hx : auxChoiceOf (Params.w p 1) with _ | x <;> rw [hx] at h <;> cases h

theorem measureParamsOf_noIndex {p : Params} (hi : asIndex 12 (Params.w p 0) = none) :
    measureParamsOf p = none := by
  simp only [measureParamsOf, hi]
  rfl

theorem auxClaimed_iff {t : Ptu} {a : AuxId} : auxClaimed t a = true ↔ t.meas[a] ≠ none :=
  Option.isSome_iff_ne_none

/-- The choice finds the named channel where it is free, and ANY finds the first free one (R140, R141). -/
theorem freeAux_finds {t : Ptu} {k : Nat} {a : AuxId} (h : k = 1 + a.val ∧ t.meas[a] = none
    ∨ k = 3 ∧ t.meas[a] = none ∧ ∀ b : AuxId, b < a → t.meas[b] ≠ none) :
    freeAux t (auxNamed k) = some a := by
  have hfree : ∀ b : AuxId, t.meas[b] = none → auxClaimed t b = false := fun b hb => by
    rw [← Bool.not_eq_true, auxClaimed_iff, hb]; exact fun hx => hx rfl
  obtain rfl | rfl : a = 0 ∨ a = 1 := (by decide : ∀ a : AuxId, a = 0 ∨ a = 1) a
  · obtain ⟨rfl, ha⟩ | ⟨rfl, ha, -⟩ := h <;> simp [auxNamed, freeAux, hfree _ ha]
  · obtain ⟨rfl, ha⟩ | ⟨rfl, ha, hb⟩ := h
    · simp [auxNamed, freeAux, hfree _ ha]
    · simp [auxNamed, freeAux, hfree _ ha, auxClaimed_iff.mpr (hb 0 (by decide))]

/-- Where no channel that the choice allows is free, none is found (R140, R141). -/
theorem freeAux_finds_none {t : Ptu} {k : Nat} (hk : 1 ≤ k ∧ k ≤ 3)
    (h1 : ∀ a : AuxId, k = 1 + a.val → t.meas[a] ≠ none) (h3 : k = 3 → ∀ a : AuxId, t.meas[a] ≠ none) :
    freeAux t (auxNamed k) = none := by
  obtain rfl | rfl | rfl : k = 1 ∨ k = 2 ∨ k = 3 := by omega
  · exact if_pos (auxClaimed_iff.mpr (h1 0 rfl))
  · exact if_pos (auxClaimed_iff.mpr (h1 1 rfl))
  · exact (if_pos (auxClaimed_iff.mpr (h3 rfl 0))).trans (if_pos (auxClaimed_iff.mpr (h3 rfl 1)))

theorem measurable_iff {e : PortEntry} : measurable e = true
    ↔ e.state = .running ∧ (e.active.mode = .pulse ∨ e.active.mode = .timecode) := by
  simp [measurable]

theorem exec_measurePortDelay {s : State} {n : Slot} (hh : Held n 13 s) :
    exec .measurePortDelay s = .next (takeMeasure n s.xu.slots[n].params (handEmptied s)) :=
  congrArg Host.Outcome.next (takeRequest_held takeMeasure hh)

section Measure

variable {s : State} {n : Slot} {m : MeasureParams}

theorem takeMeasure_invalid (hp : measureParamsOf s.xu.slots[n].params = none) :
    takeMeasure n s.xu.slots[n].params (handEmptied s) = completeNow n .invalid (handEmptied s) := by
  unfold takeMeasure
  rw [hp]

variable (hp : measureParamsOf s.xu.slots[n].params = some m)

include hp

theorem takeMeasure_notPermitted (hm : measurable s.ptu.ports[m.port] = false) :
    takeMeasure n s.xu.slots[n].params (handEmptied s) = completeNow n .notPermitted (handEmptied s) := by
  unfold takeMeasure
  rw [hp]
  exact if_pos (congrArg (!·) hm :)

/-- The checks after the port's state: a measurement or a staging, then the channel (R140). -/
theorem takeMeasure_measurable (hm : measurable s.ptu.ports[m.port] = true) :
    (s.ptu.ports[m.port].measuring ≠ none ∨ s.ptu.ports[m.port].staged ≠ none →
      takeMeasure n s.xu.slots[n].params (handEmptied s) = completeNow n .busy (handEmptied s))
    ∧ (s.ptu.ports[m.port].measuring = none → s.ptu.ports[m.port].staged = none →
      (freeAux s.ptu m.choice = none →
        takeMeasure n s.xu.slots[n].params (handEmptied s) = completeNow n .busy (handEmptied s))
      ∧ ∀ a, freeAux s.ptu m.choice = some a →
        takeMeasure n s.xu.slots[n].params (handEmptied s) = claimAux a m n (handEmptied s)) := by
  have hnot : ¬(!measurable (handEmptied s).ptu.ports[m.port]) = true := by
    rw [show measurable (handEmptied s).ptu.ports[m.port] = true from hm]
    nofun
  have hbusy : ((handEmptied s).ptu.ports[m.port].measuring.isSome
      || (handEmptied s).ptu.ports[m.port].staged.isSome) = true
        ↔ s.ptu.ports[m.port].measuring ≠ none ∨ s.ptu.ports[m.port].staged ≠ none := by
    rw [Bool.or_eq_true, Option.isSome_iff_ne_none, Option.isSome_iff_ne_none]
    rfl
  unfold takeMeasure
  rw [hp]
  dsimp only
  rw [if_neg hnot]
  refine ⟨fun h => if_pos (hbusy.mpr h), fun h1 h2 => ?_⟩
  rw [if_neg fun h => (hbusy.mp h).elim (fun h => h h1) fun h => h h2]
  refine ⟨fun hf => ?_, fun a hf => ?_⟩
  · rw [show freeAux (handEmptied s).ptu m.choice = none from hf]
  · rw [show freeAux (handEmptied s).ptu m.choice = some a from hf]

end Measure

theorem claimAux_emptied {s : State} (a : AuxId) (m : MeasureParams) (n : Slot) :
    (claimAux a m n (handEmptied s)).ptu = { s.ptu with
      ports := s.ptu.ports.set m.port { s.ptu.ports[m.port] with measuring := some a }
      meas := s.ptu.meas.set a (some (newMeas m n)) }
    ∧ ParksHeld s (claimAux a m n (handEmptied s)) := ⟨rfl, rfl⟩

/-- MEASURE-PORT-DELAY for a port that there is (R140, R141). -/
theorem measurePortDelay_told (s : State) (n : Slot) (p : Vector Word 24) (q : Port) (fits able : Prop)
    (hh : Held n 13 s) (hp : p = s.xu.slots[n].params) (hq : Params.w p 0 = BitVec.ofNat 16 q.val)
    (hfits : fits ↔ (1 ≤ Params.n1 p 1 ∧ Params.n1 p 1 ≤ 3) ∧ (Params.i2 p 2).natAbs ≤ 200000000
      ∧ Params.n1 p 4 ≤ 1)
    (hable : able ↔ s.ptu.ports[q].state = .running
      ∧ (s.ptu.ports[q].active.mode = .pulse ∨ s.ptu.ports[q].active.mode = .timecode)) :
    ∃ t, exec .measurePortDelay s = .next t
    ∧ (¬fits → t.ptu = s.ptu ∧ CompletesHeld n 5 s.tsu.label s t)
    ∧ (fits → ¬able → t.ptu = s.ptu ∧ CompletesHeld n 6 s.tsu.label s t)
    ∧ (fits → able → s.ptu.ports[q].measuring ≠ none ∨ s.ptu.ports[q].staged ≠ none →
        t.ptu = s.ptu ∧ CompletesHeld n 4 s.tsu.label s t)
    ∧ (∀ a : AuxId, fits → able → s.ptu.ports[q].measuring = none →
        s.ptu.ports[q].staged = none →
        Params.n1 p 1 = 1 + a.val ∧ s.ptu.meas[a] = none
          ∨ Params.n1 p 1 = 3 ∧ s.ptu.meas[a] = none
            ∧ (∀ b : AuxId, b < a → s.ptu.meas[b] ≠ none) →
        t.ptu = { s.ptu with
          ports := s.ptu.ports.set q { s.ptu.ports[q] with measuring := some a }
          meas := s.ptu.meas.set a (some ⟨q, Params.i2 p 2, decide (Params.n1 p 4 = 1), n, 0, none,
            Vector.replicate 8 .notTaken, []⟩) }
        ∧ ParksHeld s t)
    ∧ (fits → able → (∀ a : AuxId, Params.n1 p 1 = 1 + a.val → s.ptu.meas[a] ≠ none) →
        (Params.n1 p 1 = 3 → ∀ a : AuxId, s.ptu.meas[a] ≠ none) →
        t.ptu = s.ptu ∧ CompletesHeld n 4 s.tsu.label s t)
    ∧ KeepsAllBut [.ptu, .xu] s t := by
  subst hp
  have hi : asIndex 12 (Params.w s.xu.slots[n].params 0) = some q := asIndex_ofNat (by decide) hq
  have hnamed : fits → measureParamsOf s.xu.slots[n].params
      = some (namedMeasure s.xu.slots[n].params q) := fun h =>
    (measureParamsOf_eq_some hi).mpr ⟨hfits.mp h, rfl⟩
  have happly : (Params.w s.xu.slots[n].params 4 == 1) = decide (Params.n1 s.xu.slots[n].params 4 = 1) :=
    decide_eq_decide.mpr ⟨fun h => congrArg BitVec.toNat h, fun h => BitVec.eq_of_toNat_eq h⟩
  have htest : able → measurable s.ptu.ports[q] = true := fun h => measurable_iff.mpr (hable.mp h)
  have hbusy : takeMeasure n s.xu.slots[n].params (handEmptied s)
      = completeNow n .busy (handEmptied s) →
      (takeMeasure n s.xu.slots[n].params (handEmptied s)).ptu = s.ptu
        ∧ CompletesHeld n 4 s.tsu.label s (takeMeasure n s.xu.slots[n].params (handEmptied s)) :=
    fun h => h ▸ ⟨completeNow_ptu .., completeNow_held .busy hh⟩
  refine ⟨_, exec_measurePortDelay hh, fun hf => ?_, fun hf ha => ?_, fun hf ha h => ?_,
    fun a hf ha h1 h2 h => ?_, fun hf ha h1 h3 => ?_,
    ((handEmptied_frame s).mono (by decide)).trans (takeMeasure_frame ..)⟩
  · have hnone : measureParamsOf s.xu.slots[n].params = none := by
      rcases hm : measureParamsOf s.xu.slots[n].params with _ | m
      · rfl
      · exact absurd (hfits.mpr ((measureParamsOf_eq_some hi).mp hm).1) hf
    rw [takeMeasure_invalid hnone]
    exact ⟨completeNow_ptu .., completeNow_held .invalid hh⟩
  · rw [takeMeasure_notPermitted (hnamed hf)
      (by rw [← Bool.not_eq_true]; exact fun h => ha (hable.mpr (measurable_iff.mp h)))]
    exact ⟨completeNow_ptu .., completeNow_held .notPermitted hh⟩
  · exact hbusy ((takeMeasure_measurable (hnamed hf) (htest ha)).1 h)
  · rw [((takeMeasure_measurable (hnamed hf) (htest ha)).2 h1 h2).2 a (freeAux_finds h), ← happly]
    exact claimAux_emptied ..
  · by_cases h : s.ptu.ports[q].measuring ≠ none ∨ s.ptu.ports[q].staged ≠ none
    · exact hbusy ((takeMeasure_measurable (hnamed hf) (htest ha)).1 h)
    · obtain ⟨hm, hs⟩ := not_or.mp h
      exact hbusy (((takeMeasure_measurable (hnamed hf) (htest ha)).2 (not_not.mp hm) (not_not.mp hs)).1
        (freeAux_finds_none (hfits.mp hf).1 h1 h3))

/-- Settles O52. -/
theorem portRequestsAreChecked : Obligations.PortRequestsAreChecked := by
  refine ⟨fun p => ⟨portSettingsOf_ne_none p, fun g clamped => portSettingsOf_fields⟩, configurePort_told,
    measurePortDelay_told, fun s n c h hi => ?_⟩
  have hnone : asIndex 12 (Params.w s.xu.slots[n].params 0) = none := asIndex_eq_none hi
  obtain ⟨hh, rfl⟩ | ⟨hh, rfl⟩ := h
  · rw [exec_configurePort hh]
    refine exec_turnsAway .invalid hh ?_
    simp only [takeConfigurePort, hnone]
  · rw [exec_measurePortDelay hh, takeMeasure_invalid (measureParamsOf_noIndex hnone)]
    exact exec_turnsAway .invalid hh rfl

end Sys2Proof.Machine
end

section
/-! PROOFS. The delay measurement: its return windows, the sample each decides, and the endings. -/

namespace Sys2Proof.Machine

open Sys2Proof.Safety Config

/-! ### Timescale running (R10, R142) -/

/-- What the timescale reads, a boundary still to take counted beyond the whole second (R10). -/
def nowOf (t : Tsu) : Int := (t.due.map fun x => (psPerSecond : Int) + x).getD t.frac

/-- What the present second has run (R10). -/
def ranOf (t : Tsu) : Int := (t.hold.map fun h => (h.run : Int)).getD (nowOf t - t.secondStep)

/-- RunSince, told for what the timescale reads and has run. -/
theorem runSince_reads {t : Tsu} {sec ps : Nat} {run : Int} (h : RunSince t sec ps run) :
    (sec = t.second → run = nowOf t - ps)
    ∧ (sec < t.second → run = ((t.second : Int) - sec) * 1000000000000 - ps + ranOf t) := by
  refine h (nowOf t) (ranOf t) (fun hd => ?_) (fun x hd => ?_) (fun hh => ?_) fun x hh => ?_
  · rw [nowOf, hd]; rfl
  · rw [nowOf, hd]; rfl
  · rw [ranOf, hh]; rfl
  · rw [ranOf, hh]; rfl

theorem runSince_model (t : Tsu) (sec ps : Nat) : runSince t sec ps = if sec = t.second then nowOf t - ps
    else ((t.second : Int) - sec) * 1000000000000 - ps + ranOf t := by
  unfold runSince ranOf nowOf
  rcases t.due with _ | x <;> rcases t.hold with _ | y <;> rfl

theorem runSince_unique {t : Tsu} {sec ps : Nat} {run : Int} (h : RunSince t sec ps run)
    (hs : sec ≤ t.second) : run = runSince t sec ps := by
  obtain ⟨hsame, hpast⟩ := runSince_reads h
  rw [runSince_model]
  split
  · exact hsame ‹_›
  · exact hpast (by omega)

/-! ### A sample decided (R142, R143) -/

/-- The measurement with the sample of its window `k` decided. -/
def decided (r : RoundTrip) (m : DelayMeas) : DelayMeas :=
  { m with
    window := none
    samples := Vector.ofFn fun i : Fin 8 => if i.val + 1 = m.k then r else m.samples[i] }

theorem decided_eq {r : RoundTrip} {m : DelayMeas} {i : Fin 8} (h : m.k = i.val + 1) :
    decided r m = { m with window := none, samples := m.samples.set i r } := by
  have hs : (Vector.ofFn fun j : Fin 8 => if j.val + 1 = m.k then r else m.samples[j])
      = m.samples.set i r := by
    refine Vector.ext fun j hj => ?_
    rw [Vector.getElem_ofFn, Vector.getElem_set, h]
    exact if_congr (by dsimp only; omega) rfl rfl
  rw [decided, hs]

theorem decideSample_open {a : AuxId} {r : RoundTrip} {m : DelayMeas} {s : State} (h : m.k < 8) :
    decideSample a r m s = s.setMeas a (some (decided r m)) := if_neg (Nat.not_le.mpr h)

theorem decideSample_last {a : AuxId} {r : RoundTrip} {m : DelayMeas} {s : State} (h : m.k = 8) :
    decideSample a r m s = endResult a (decided r m) s := if_pos h.ge

section Windows

variable {s : State} {a : AuxId} {m : DelayMeas} (hm : s.ptu.meas[a] = some m)

include hm

theorem takePeriodNotice_eq {rest : List MeasNotice} {lead : Option (Instant × Nat)}
    (hn : m.notices = .period lead :: rest) (hw : m.window = none) :
    takePeriodNotice a s = takeNotice a lead { m with notices := rest } s := by
  simp only [takePeriodNotice, hm, hn, hw]

theorem takeAuxEdge_noWindow (hw : m.window = none) : takeAuxEdge a s = s := by
  simp only [takeAuxEdge, hm, hw]

theorem takeAuxEdge_window {w : ReturnWindow} (hw : m.window = some w) : takeAuxEdge a s
    = if w.timer < 0 then s else decideSample a (returnSample s.tsu w (stampFor s.tsu [])) m s := by
  simp only [takeAuxEdge, hm, hw]

theorem takeWindowExpiry_window {w : ReturnWindow} (hw : m.window = some w) :
    takeWindowExpiry a s = if w.timer ≤ 0 then decideSample a .missing m s else s := by
  simp only [takeWindowExpiry, hm, hw]

end Windows

/-- The sample of a return in a hold, and of one beside it (R143). -/
theorem returnSample_eq (t : Tsu) (w : ReturnWindow) : returnSample t w (stampFor t [])
    = if t.hold = none then .value (instDiff ⟨t.label, t.frac / 125 * 125⟩ w.start
        - if w.second < t.second then t.secondStep else 0) else .missing := by
  unfold returnSample
  rw [stampFor_nil]
  by_cases h : t.hold = none
  · rw [if_pos h, if_pos h, if_neg (by simp [h])]
  · rw [if_neg h, if_pos (by simp [h]), if_neg h]

/-- A sample is the one that its return gives. -/
theorem returnSample_of {t : Tsu} {w : ReturnWindow} {r : RoundTrip} (h1 : t.hold ≠ none → r = .missing)
    (h0 : t.hold = none → r = .value (instDiff ⟨t.label, t.frac / 125 * 125⟩ w.start
      - if w.second < t.second then t.secondStep else 0)) :
    returnSample t w (stampFor t []) = r := by
  rw [returnSample_eq]
  by_cases h : t.hold = none
  · rw [if_pos h, h0 h]
  · rw [if_neg h, h1 h]

theorem instDiff_sameLabel {x y : Instant} (h : y.label = x.label) :
    instDiff x y = (x.ps : Int) - y.ps := by
  unfold instDiff
  rw [h, BitVec.sub_self]
  simp

theorem instDiff_nextLabel {x y : Instant} (h : y.label + 1 = x.label) :
    instDiff x y = 1000000000000 + ((x.ps : Int) - y.ps) := by
  have hone : x.label - y.label = 1 := by bv_omega
  rw [instDiff, hone]
  rfl

/-- A round trip that the window takes ends within it, where the labels run on (R142, R143). -/
theorem returnValue_le {t : Tsu} {w : ReturnWindow} {v : Int} (hh : t.hold = none)
    (hv : v = instDiff ⟨t.label, t.frac / 125 * 125⟩ w.start
      - if w.second < t.second then t.secondStep else 0)
    (ht : 0 ≤ w.timer) (hf : t.frac < 1000000000000)
    (hr : RunSince t w.second w.start.ps (100000000 - w.timer))
    (hl : w.second = t.second ∧ w.start.label = t.label
      ∨ w.second + 1 = t.second ∧ w.start.label + 1 = t.label) : v ≤ 100000000 := by
  obtain ⟨hsame, hpast⟩ := runSince_reads hr
  have hgrid : t.frac / 125 * 125 ≤ t.frac := Nat.div_mul_le_self ..
  have hnow : (t.frac : Int) ≤ nowOf t := by
    unfold nowOf
    rcases t.due with _ | x
    · exact Int.le_refl _
    · change (t.frac : Int) ≤ 1000000000000 + x
      omega
  have hran : ranOf t = nowOf t - t.secondStep := by rw [ranOf, hh]; rfl
  obtain ⟨hs, hlabel⟩ | ⟨hs, hlabel⟩ := hl
  · rw [instDiff_sameLabel hlabel, if_neg (by omega)] at hv
    have := hsame hs
    dsimp only at hv
    omega
  · rw [instDiff_nextLabel hlabel, if_pos (by omega)] at hv
    have := hpast (by omega)
    rw [hran, ← hs] at this
    dsimp only at hv
    push_cast at this
    omega

/-- Settles O53. -/
theorem returnWindowsDecideSamples : Obligations.ReturnWindowsDecideSamples := by
  refine ⟨fun s a hm => ?_, fun s a m hm => ⟨fun rest lead hn hw => ⟨?_, ?_⟩, ?_, fun hw => ?_,
    fun w hw => ⟨fun ht => ?_, fun ht => ?_⟩⟩⟩
  · refine congrArg Host.Outcome.next ?_
    simp only [takeAuxEdge, hm]
  · rintro e n run rfl hle hrun
    refine congrArg Host.Outcome.next ((takePeriodNotice_eq hm hn hw).trans ?_)
    rw [runSince_unique hrun hle]
    rfl
  · rintro i rfl hk h7
    refine congrArg Host.Outcome.next ((takePeriodNotice_eq hm hn hw).trans ?_)
    have hdec := decided_eq (r := .missing) (m := { m with notices := rest, k := m.k + 1 }) (i := i)
      (congrArg (· + 1) hk)
    refine (decideSample_open (m := { m with notices := rest, k := m.k + 1 }) (by dsimp only; omega)).trans ?_
    rw [hdec, ← hw]
    rfl
  · intro w i r hw hk h8 h1 h0
    refine ⟨fun ht => ?_, fun v hv ht hf hrun hl => ?_, fun ht => ?_⟩
    · refine congrArg Host.Outcome.next ((takeAuxEdge_window hm hw).trans ?_)
      rw [if_neg (Int.not_lt.mpr ht), returnSample_of h1 h0, decideSample_open h8, decided_eq hk]
      rfl
    · have hh : s.tsu.hold = none := by
        by_contra hne
        exact RoundTrip.noConfusion (hv.symm.trans (h1 hne))
      exact returnValue_le hh (RoundTrip.value.inj (hv.symm.trans (h0 hh))) ht hf hrun hl
    · refine congrArg Host.Outcome.next ((takeWindowExpiry_window hm hw).trans ?_)
      rw [if_pos ht, decideSample_open h8, decided_eq hk]
      rfl
  · exact congrArg Host.Outcome.next (takeAuxEdge_noWindow hm hw)
  · exact congrArg Host.Outcome.next ((takeAuxEdge_window hm hw).trans (if_pos ht))
  · exact congrArg Host.Outcome.next ((takeWindowExpiry_window hm hw).trans (if_neg (Int.not_le.mpr ht)))

end Sys2Proof.Machine
end

section
/-! PROOFS. The ending of a delay measurement: its result words, its outcome and the completion. -/

namespace Sys2Proof.Machine

open Sys2Proof.Safety Config

/-! ### The result words (R185) -/

theorem resultWords_length (outcome : Word) (m : DelayMeas) (figures : Option DelayFigures)
    (staged : Option (Int × Bool)) : (resultWords outcome m figures staged).length = 16 := rfl

/-- The extremes bound the samples that are present. -/
theorem extremes_bound {l : List Int} {lo hi : Int} (h : extremes l = some (lo, hi)) :
    (lo ∈ l ∧ ∀ x ∈ l, lo ≤ x) ∧ (hi ∈ l ∧ ∀ x ∈ l, x ≤ hi) := by
  rcases l with _ | ⟨x, xs⟩
  · cases h
  · cases h
    exact ⟨List.min?_eq_some_iff.mp List.min?_cons', List.max?_eq_some_iff.mp List.max?_cons'⟩

theorem extremes_none {l : List Int} : extremes l = none ↔ l = [] := by
  cases l <;> simp [extremes]

/-- The extremes are the bounds that lie in the list. -/
theorem extremes_eq {l : List Int} {lo hi : Int} (hlo : lo ∈ l) (hhi : hi ∈ l)
    (h : ∀ x ∈ l, lo ≤ x ∧ x ≤ hi) : extremes l = some (lo, hi) := by
  rcases hx : extremes l with _ | ⟨a, b⟩
  · rw [extremes_none.mp hx] at hlo
    cases hlo
  · obtain ⟨⟨ha, hla⟩, hb, hlb⟩ := extremes_bound hx
    rw [le_antisymm (hla lo hlo) (h a ha).1, le_antisymm (h b hb).2 (hlb hi hhi)]

theorem readsZero_append {l : List Word} {o a b : Nat} (h : ReadsZero l o a) (h' : ReadsZero l (o + a) b) :
    ReadsZero l o (a + b) := by
  intro j hj
  by_cases hja : j < a
  · exact h j hja
  · have hb := h' (j - a) (by omega)
    rwa [show o + a + (j - a) = o + j by omega] at hb

theorem readsZero_ps2 {l : List Word} {o : Nat} (h : StandsAt l o (encPs2 0)) : ReadsZero l o 2 :=
  standsAt_replicate (by exact h)

/-- The result words show the ending (R185). -/
theorem showsResult {l : List Word} {outcome : Word} {m : DelayMeas} {figures : Option DelayFigures}
    {staged : Option (Int × Bool)} (h : StandsAt l 0 (resultWords outcome m figures staged))
    (hone : ∀ f, figures = some f → f.oneWay = f.mean / 2) :
    ShowsResult l outcome m (presentSamples m) (figures.map (·.mean)) staged := by
  unfold resultWords at h
  obtain ⟨h, h15⟩ := h.append
  obtain ⟨h, h13⟩ := h.append
  obtain ⟨h, h11⟩ := h.append
  obtain ⟨h, h9⟩ := h.append
  obtain ⟨h, h7⟩ := h.append
  obtain ⟨h, h5⟩ := h.append
  obtain ⟨h, h3⟩ := h.append
  obtain ⟨h, h2⟩ := h.append
  obtain ⟨h0, h1⟩ := h.append
  change StandsAt l 15 _ at h15
  change StandsAt l 13 _ at h13
  change StandsAt l 11 _ at h11
  change StandsAt l 9 _ at h9
  change StandsAt l 7 _ at h7
  change StandsAt l 5 _ at h5
  change StandsAt l 3 _ at h3
  have hzero : ∀ {o v}, StandsAt l o (encPs2 v) → v = 0 → ReadsZero l o 2 := fun hs hv =>
    readsZero_ps2 (hv ▸ hs)
  refine ⟨h0.word, h1.nat1, ?_, fun hp => ?_, fun lo hlo hi hhi hall => ?_, ⟨fun hf => ?_, fun v hv => ?_⟩,
    ⟨fun hs => ?_, fun c hc => ?_⟩, fun b hb => ?_⟩
  · rw [show l.getD 2 0 = _ from h2.word]
    exact showsMasks m
  · have he : extremes (presentSamples m) = none := extremes_none.mpr hp
    rw [he] at h3 h5 h7
    exact readsZero_append (o := 3) (a := 4)
      (readsZero_append (o := 3) (a := 2) (hzero h3 rfl) (hzero h5 rfl)) (hzero h7 rfl)
  · have he := extremes_eq hlo hhi hall
    rw [he] at h3 h5 h7
    exact ⟨h3.ps2, h5.ps2, h7.ps2⟩
  · rw [hf] at h9
    rw [Option.map_eq_none_iff.mp hf] at h11
    exact readsZero_append (o := 9) (a := 2) (hzero h9 rfl) (hzero h11 rfl)
  · obtain ⟨f, rfl, rfl⟩ := Option.map_eq_some_iff.mp hv
    rw [← hone f rfl]
    exact ⟨h9.ps2, h11.ps2⟩
  · exact hzero h13 (by rw [hs]; rfl)
  · subst hc
    exact h13.ps2
  · have hsome : (extremes (presentSamples m)).isSome = b := by
      rw [Bool.eq_iff_iff, hb, Option.isSome_iff_ne_none]
      exact not_congr extremes_none
    have hflags := h15.nat1
    rwa [hsome, bitOf_eq_toNat, bitOf_eq_toNat, bitOf_eq_toNat, bitOf_eq_toNat, ← Option.isSome_map] at hflags

/-! ### The completion and its bumps (R146, R171) -/

theorem overwrite_standsAt (p : Vector Word 24) {ws : List Word} (h : ws.length ≤ 24) :
    StandsAt (overwrite p ws).toList 0 ws := by
  intro j hj
  have hj' : j < (overwrite p ws).toList.length := by simpa using Nat.lt_of_lt_of_le hj h
  rw [Nat.zero_add, List.getD_eq_getElem _ _ hj', List.getD_eq_getElem _ _ hj]
  simp [overwrite, hj]

/-- What an ending does to the exchange unit: the result written, the slot DONE, PORT and DONE bumped once
each (R146, R171). `u` is the state with the port unit's part done. -/
theorem ended_told {s u t : State} {n : Slot} {k : Completion} {l : Label} {ws : List Word}
    (ht : t = bump clsPort (complete n k l ws u)) (hx : u.xu = s.xu) (ha : u.alu = s.alu) (hq : u.qsu = s.qsu)
    (hp : ∀ p : Port, u.ptu.ports[p].state = s.ptu.ports[p].state)
    (htaken : s.xu.slots[n].state = .taken) (hw : ws.length = 16) :
    StandsAt t.xu.slots[n].params.toList 0 ws
    ∧ t.xu.slots = s.xu.slots.set n { s.xu.slots[n] with
        state := .done
        code := k.code
        label := l
        params := t.xu.slots[n].params }
    ∧ (∀ j : Fin 24, 16 ≤ j.val → t.xu.slots[n].params[j] = s.xu.slots[n].params[j])
    ∧ t.xu.attn[clsPort].count = s.xu.attn[clsPort].count + 1
    ∧ t.xu.attn[clsDone].count = s.xu.attn[clsDone].count + 1
    ∧ ChangesXu t.xu.slots s.xu.unit [clsPort] s t := by
  have htaken' : u.xu.slots[n].state = .taken := by rw [hx]; exact htaken
  obtain ⟨hset, hdone⟩ := complete_of_taken k l ws htaken'
  have hself : t.xu.slots[n] = { u.xu.slots[n] with
      params := overwrite u.xu.slots[n].params ws, code := k.code, label := l, state := .done } := by
    rw [ht]
    exact complete_slots_self k l ws htaken'
  have hbump : AttnBumped [clsPort] s t := by
    rw [ht]
    exact attnBumped_bump clsPort (attnBumped_complete k l ws htaken' (by rw [htaken]; nofun)
      (attnBumped_of_same_states hx ha hq hp (attnBumped_none rfl rfl rfl rfl fun _ => rfl)))
  have hports : bumpsShown s t clsPort = 0 := by
    have hstate : ∀ p : Port, t.ptu.ports[p].state = s.ptu.ports[p].state := by
      rw [ht, bump_ptu, complete_ptu]
      exact hp
    refine (if_neg (by decide)).trans ((if_neg (by decide)).trans ((if_neg (by decide)).trans
      ((if_pos rfl).trans (List.countP_eq_zero.mpr fun p _ h => ?_))))
    exact of_decide_eq_true h (hstate p).symm
  refine ⟨?_, ?_, fun j hj => ?_, ?_, ?_, ?_, hbump⟩
  · rw [hself]
    exact overwrite_standsAt _ (by rw [hw]; decide)
  · rw [hself, ht]
    refine hset.trans ?_
    rw [hx]
    rfl
  · rw [hself, hx]
    exact overwrite_get _ (by rwa [hw])
  · rw [hbump clsPort 1 (by rw [hports]; rfl)]
    rfl
  · rw [ht, bump_attn, if_neg (by decide), hdone, hx]
  · rw [ht]
    refine (congrArg (fun x : Xu => { x with
      attn := (bump clsPort (complete n k l ws u)).xu.attn
      inta := (bump clsPort (complete n k l ws u)).xu.inta
      intb := (bump clsPort (complete n k l ws u)).xu.intb }) (complete_xu n k l ws u)).trans ?_
    rw [hx]
    rfl

/-! ### The outcome (R144, R145) -/

/-- The figures of an OK result (R144). -/
def resultFigures (m : DelayMeas) : Option DelayFigures :=
  if measOutcome m = .ok then some (delayFigures (presentSamples m)) else none

/-- What an ending with a result stages (R145). -/
def resultStaged (m : DelayMeas) : Option (Int × Bool) :=
  if m.apply then (resultFigures m).map (stagedComp m) else none

/-- The completion code of a result (R145, R171). -/
def resultCode (m : DelayMeas) : Completion :=
  if (resultStaged m).any (·.2) then .adjusted else measOutcome m

/-- The first line of R144 that applies. -/
theorem measOutcome_cases (m : DelayMeas) :
    3 ≤ missingCount m ∧ measOutcome m = .noReturn
    ∨ missingCount m < 3 ∧ (∃ x ∈ presentSamples m, ∃ y ∈ presentSamples m, 10000 < x - y)
      ∧ measOutcome m = .unstable
    ∨ missingCount m < 3 ∧ (∀ x ∈ presentSamples m, ∀ y ∈ presentSamples m, x - y ≤ 10000)
      ∧ measOutcome m = .ok := by
  unfold measOutcome
  by_cases h3 : 3 ≤ missingCount m
  · exact .inl ⟨h3, if_pos h3⟩
  · refine .inr ?_
    rw [if_neg h3]
    have hlt := Nat.not_le.mp h3
    rcases he : extremes (presentSamples m) with _ | ⟨lo, hi⟩
    · rw [extremes_none.mp he]
      exact .inr ⟨hlt, nofun, rfl⟩
    · obtain ⟨⟨hlo, hlow⟩, hhi, hhigh⟩ := extremes_bound he
      dsimp only
      by_cases hs : (spreadBound : Int) < hi - lo
      · exact .inl ⟨hlt, ⟨hi, hhi, lo, hlo, hs⟩, if_pos hs⟩
      · refine .inr ⟨hlt, fun x hx y hy => ?_, if_neg hs⟩
        have := hhigh x hx
        have := hlow y hy
        unfold spreadBound at hs
        omega

/-- The one-way compensation that a result computes (R144, R145). -/
def oneWayComp (m : DelayMeas) : Int :=
  roundDiv (presentSamples m).sum (presentSamples m).length / 2 + m.farEnd

theorem stagedComp_eq (m : DelayMeas) : stagedComp m (delayFigures (presentSamples m))
    = (max (-200000000) (min 200000000 (oneWayComp m)), decide (200000000 < (oneWayComp m).natAbs)) :=
  congrArg (Prod.mk (clampAbs (oneWayComp m) compensationBound)) (clampAbs_bne _)

/-- The parts of a failed result. -/
theorem result_failed {m : DelayMeas} (h : measOutcome m ≠ .ok) : resultFigures m = none
    ∧ resultStaged m = none ∧ resultCode m = measOutcome m := by
  have hf : resultFigures m = none := if_neg h
  have hs : resultStaged m = none := by
    unfold resultStaged
    rw [hf]
    split <;> rfl
  exact ⟨hf, hs, by rw [resultCode, hs]; rfl⟩

/-- The parts of an OK result. -/
theorem result_ok {m : DelayMeas} (h : measOutcome m = .ok) :
    resultFigures m = some (delayFigures (presentSamples m))
    ∧ resultStaged m = (if m.apply then some (max (-200000000) (min 200000000 (oneWayComp m)),
        decide (200000000 < (oneWayComp m).natAbs)) else none)
    ∧ resultCode m = if m.apply = true ∧ 200000000 < (oneWayComp m).natAbs then .adjusted else .ok := by
  have hf : resultFigures m = some (delayFigures (presentSamples m)) := if_pos h
  have hs : resultStaged m = (if m.apply then some (max (-200000000) (min 200000000 (oneWayComp m)),
      decide (200000000 < (oneWayComp m).natAbs)) else none) := by
    rw [resultStaged, hf, Option.map_some, stagedComp_eq]
  refine ⟨hf, hs, ?_⟩
  rw [resultCode, hs, h]
  cases m.apply <;> simp

/-- The codes, words and staging of a result, told by the checks of R144 in their order. -/
theorem result_told {m : DelayMeas} {code : Word} {bad : Bool} {mean : Option Int}
    {staged : Option (Int × Bool)} (h7 : 3 ≤ missingCount m → code = 7)
    (h8 : missingCount m < 3 →
      (∃ x ∈ presentSamples m, ∃ y ∈ presentSamples m, 10000 < x - y) → code = 8)
    (h1 : missingCount m < 3 → (∀ x ∈ presentSamples m, ∀ y ∈ presentSamples m, x - y ≤ 10000) →
      code = if m.apply = true ∧ 200000000 < (oneWayComp m).natAbs then 2 else 1)
    (hbad : bad = decide (code = 7 ∨ code = 8))
    (hmean : mean = if bad then none
      else some (roundDiv (presentSamples m).sum (presentSamples m).length))
    (hstaged : staged = if m.apply && !bad then
      some (max (-200000000) (min 200000000 (oneWayComp m)), decide (code = 2)) else none) :
    (resultCode m).code = code ∧ (measOutcome m).code = (if code = 2 then 1 else code)
    ∧ (measOutcome m != .ok) = bad ∧ (resultFigures m).map (·.mean) = mean ∧ resultStaged m = staged := by
  have hfail : measOutcome m ≠ .ok → bad = true → (measOutcome m).code = code → code ≠ 2 →
      (resultCode m).code = code ∧ (measOutcome m).code = (if code = 2 then 1 else code)
      ∧ (measOutcome m != .ok) = bad ∧ (resultFigures m).map (·.mean) = mean
      ∧ resultStaged m = staged := by
    intro hout hb hcode hne
    obtain ⟨hf, hs, hk⟩ := result_failed hout
    rw [hk, hf, hs, hmean, hstaged, hb, if_neg hne]
    exact ⟨hcode, hcode, bne_iff_ne.mpr hout, rfl, by simp⟩
  obtain ⟨hm, ho⟩ | ⟨hm, hx, ho⟩ | ⟨hm, hx, ho⟩ := measOutcome_cases m
  · have hc := h7 hm
    exact hfail (by rw [ho]; nofun) (by rw [hbad, hc]; rfl) (by rw [ho, hc]; rfl) (by rw [hc]; decide)
  · have hc := h8 hm hx
    exact hfail (by rw [ho]; nofun) (by rw [hbad, hc]; rfl) (by rw [ho, hc]; rfl) (by rw [hc]; decide)
  · have hc := h1 hm hx
    obtain ⟨hf, hs, hk⟩ := result_ok ho
    rw [hk, hf, hs, ho, hstaged, hmean, hbad, hc]
    by_cases hbig : 200000000 < (oneWayComp m).natAbs <;> cases m.apply <;>
      simp [hbig, delayFigures, Completion.code]

/-! ### The port unit's part (R141, R145 to R147) -/

theorem releaseAux_ptu (a : AuxId) (p : Port) (s : State) : (releaseAux a p s).ptu = { s.ptu with
    meas := s.ptu.meas.set a none
    ports := s.ptu.ports.set p { s.ptu.ports[p] with measuring := none } } := rfl

theorem releaseAux_states (a : AuxId) (p q : Port) (s : State) :
    (releaseAux a p s).ptu.ports[q].state = s.ptu.ports[q].state :=
  updPort_states (f := fun e => { e with measuring := none }) (fun _ => rfl) (s.setMeas a none) p q

/-- The state as an ending with a result leaves the port unit (R145 to R147). -/
def endedPorts (a : AuxId) (m : DelayMeas) (s : State) : State :=
  settleDelayFailed (measOutcome m != .ok) (releaseAux a m.port (stageComp m.port (resultStaged m) s))

theorem stageComp_states (p q : Port) (staged : Option (Int × Bool)) (s : State) :
    (stageComp p staged s).ptu.ports[q].state = s.ptu.ports[q].state := by
  rcases staged with _ | ⟨x, c⟩
  · rfl
  · exact updPort_states (f := fun e => { e with
      staged := some ⟨{ e.active with compensation := x }, .measurement, false⟩ }) (fun _ => rfl) s p q

theorem stageComp_release_ports (a : AuxId) (p : Port) (staged : Option (Int × Bool)) (s : State) :
    (releaseAux a p (stageComp p staged s)).ptu.ports = s.ptu.ports.set p { s.ptu.ports[p] with
      measuring := none
      staged := match staged with
        | some (x, _) => some ⟨{ s.ptu.ports[p].active with compensation := x }, .measurement, false⟩
        | none => s.ptu.ports[p].staged } := by
  rcases staged with _ | ⟨x, c⟩
  · rfl
  · simp [releaseAux_ptu, stageComp, State.updPort, State.setPtu, updAt]

theorem stageComp_rest (p : Port) (staged : Option (Int × Bool)) (s : State) :
    (stageComp p staged s).ptu.meas = s.ptu.meas
    ∧ (stageComp p staged s).ptu.squelched = s.ptu.squelched
    ∧ (stageComp p staged s).ptu.delayFailed = s.ptu.delayFailed
    ∧ (stageComp p staged s).wires = s.wires ∧ (stageComp p staged s).xu = s.xu
    ∧ (stageComp p staged s).tsu = s.tsu := by
  rcases staged with _ | ⟨x, c⟩ <;> exact ⟨rfl, rfl, rfl, rfl, rfl, rfl⟩

theorem settleDelayFailed_eq (b : Bool) (s : State) : settleDelayFailed b s = { s with
    ptu := { s.ptu with delayFailed := b }
    wires := { s.wires with conds := s.wires.conds ++ handed codeDelayFailed s.ptu.delayFailed b } } := by
  rw [settleDelayFailed, handIfChanged_eq]
  rfl

theorem endedPorts_told (a : AuxId) (m : DelayMeas) (s : State) :
    (endedPorts a m s).ptu.meas = s.ptu.meas.set a none
    ∧ (endedPorts a m s).ptu.ports = s.ptu.ports.set m.port { s.ptu.ports[m.port] with
        measuring := none
        staged := match resultStaged m with
          | some (x, _) =>
            some ⟨{ s.ptu.ports[m.port].active with compensation := x }, .measurement, false⟩
          | none => s.ptu.ports[m.port].staged }
    ∧ (endedPorts a m s).ptu.squelched = s.ptu.squelched
    ∧ (endedPorts a m s).ptu.delayFailed = (measOutcome m != .ok)
    ∧ (endedPorts a m s).wires = { s.wires with
        conds := s.wires.conds ++ handed codeDelayFailed s.ptu.delayFailed (measOutcome m != .ok) } := by
  obtain ⟨hmeas, hsq, hfail, hwires, -, -⟩ := stageComp_rest m.port (resultStaged m) s
  have hports := stageComp_release_ports a m.port (resultStaged m) s
  unfold endedPorts
  rw [settleDelayFailed_eq]
  refine ⟨?_, hports, hsq, rfl, ?_⟩
  · exact congrArg (fun v : Vector (Option DelayMeas) 2 => v.set a none) hmeas
  · change ({ (stageComp m.port (resultStaged m) s).wires with
      conds := (stageComp m.port (resultStaged m) s).wires.conds
        ++ handed codeDelayFailed (stageComp m.port (resultStaged m) s).ptu.delayFailed _ } : Wires) = _
    rw [hwires, hfail]

/-- An ending with a result: the port unit's part, then the completion and its bumps. -/
theorem endResult_eq (a : AuxId) (m : DelayMeas) (s : State) : endResult a m s
    = bump clsPort (complete m.slot (resultCode m) s.tsu.label
        (resultWords (measOutcome m).code m (resultFigures m) (resultStaged m)) (endedPorts a m s)) := by
  have hl : (endedPorts a m s).tsu.label = s.tsu.label := by
    unfold endedPorts
    rw [settleDelayFailed_eq]
    exact congrArg Tsu.label (stageComp_rest m.port (resultStaged m) s).2.2.2.2.2
  rw [← hl]
  rfl

theorem endedPorts_states (a : AuxId) (m : DelayMeas) (s : State) (q : Port) :
    (endedPorts a m s).ptu.ports[q].state = s.ptu.ports[q].state := by
  unfold endedPorts
  rw [settleDelayFailed_eq]
  exact (releaseAux_states ..).trans (stageComp_states ..)

theorem endedPorts_xu (a : AuxId) (m : DelayMeas) (s : State) : (endedPorts a m s).xu = s.xu := by
  unfold endedPorts
  rw [settleDelayFailed_eq]
  exact (stageComp_rest m.port (resultStaged m) s).2.2.2.2.1

/-- The ending of a result reads the samples, and no window, number or notice. -/
theorem endResult_reads (a : AuxId) (m : DelayMeas) (s : State) (w : Option ReturnWindow) (k : Nat)
    (ns : List MeasNotice) :
    endResult a { m with window := w, k := k, notices := ns } s = endResult a m s := rfl

/-- What decides the eighth sample ends the measurement (R142 to R144). -/
theorem eighth_ends {s : State} {a : AuxId} {m : DelayMeas} {i : Instr} {r : RoundTrip}
    (hm : s.ptu.meas[a] = some m)
    (h : (∃ w, m.window = some w ∧ m.k = 8
          ∧ (i = .windowTimerExpiry a ∧ w.timer ≤ 0 ∧ r = .missing
            ∨ i = .auxLeadingEdge a ∧ 0 ≤ w.timer ∧ s.tsu.hold ≠ none ∧ r = .missing
            ∨ i = .auxLeadingEdge a ∧ 0 ≤ w.timer ∧ s.tsu.hold = none
              ∧ r = .value (instDiff ⟨s.tsu.label, s.tsu.frac / 125 * 125⟩ w.start
                - if w.second < s.tsu.second then s.tsu.secondStep else 0)))
        ∨ m.window = none ∧ m.k = 7 ∧ r = .missing ∧ i = .periodNotice a
          ∧ ∃ rest, m.notices = .period none :: rest) :
    exec i s = .next (endResult a { m with samples := m.samples.set 7 r } s) := by
  obtain ⟨w, hw, hk, hi⟩ | ⟨hw, hk, rfl, rfl, rest, hn⟩ := h
  · have hdec : decideSample a r m s = endResult a { m with samples := m.samples.set 7 r } s := by
      rw [decideSample_last hk, decided_eq (i := 7) hk]
      exact endResult_reads a { m with samples := m.samples.set 7 r } s none m.k m.notices
    rw [← hdec]
    obtain ⟨rfl, ht, rfl⟩ | ⟨rfl, ht, hh, rfl⟩ | ⟨rfl, ht, hh, rfl⟩ := hi
    · exact congrArg Host.Outcome.next ((takeWindowExpiry_window hm hw).trans (if_pos ht))
    · refine congrArg Host.Outcome.next ((takeAuxEdge_window hm hw).trans ?_)
      rw [if_neg (Int.not_lt.mpr ht), returnSample_of (fun _ => rfl) fun h => absurd h hh]
    · refine congrArg Host.Outcome.next ((takeAuxEdge_window hm hw).trans ?_)
      rw [if_neg (Int.not_lt.mpr ht), returnSample_of (fun h => absurd hh h) fun _ => rfl]
  · refine congrArg Host.Outcome.next ((takePeriodNotice_eq hm hn hw).trans ?_)
    have hk8 : ({ m with notices := rest, k := m.k + 1 } : DelayMeas).k = 8 := congrArg (· + 1) hk
    refine (decideSample_last hk8).trans ?_
    rw [decided_eq (i := 7) hk8]
    exact endResult_reads a { m with samples := m.samples.set 7 .missing } s none (m.k + 1) rest

/-- Settles O54. -/
theorem delayMeasurementEnds : Obligations.DelayMeasurementEnds := by
  intro s a m hm htaken _
  refine ⟨?_, fun rest hn => ?_⟩
  · rintro i r z vals missing c code bad mean staged hi hz hvals hmissing hc h7 h8 h1 hbad hmean hstaged
    have hexec := eighth_ends hm hi
    rw [← hz] at hexec
    have htaken' : s.xu.slots[z.slot].state = .taken := by rw [hz]; exact htaken
    have happly : m.apply = z.apply := by rw [hz]
    have hfar : m.farEnd = z.farEnd := by rw [hz]
    have hvals' : vals = presentSamples z := hvals
    have hmissing' : missing = missingCount z := hmissing
    have hc' : c = oneWayComp z := by rw [hc, hfar, hvals']; rfl
    subst hvals' hmissing' hc'
    rw [happly] at h1 hstaged
    obtain ⟨hcode, hout, hfail, hfig, hst⟩ := result_told h7 h8 h1 hbad hmean hstaged
    have heq := endResult_eq a z s
    have hframe : KeepsAllBut [.ptu, .xu, .wires] s (endResult a z s) := by simp [KeepsAllBut]
    rw [hfig.symm, ← hst, ← hout, ← hcode, ← hfail]
    generalize endResult a z s = t at hexec heq hframe
    obtain ⟨hwords, hslots, hrest, hpc, hdc, hch⟩ := ended_told heq (endedPorts_xu a z s)
      (by simp [endedPorts]) (by simp [endedPorts])
      (endedPorts_states a z s) htaken' (resultWords_length ..)
    obtain ⟨hmeas, hports, hsq, hdf, hwires⟩ := endedPorts_told a z s
    have hptu : t.ptu = (endedPorts a z s).ptu := by rw [heq, bump_ptu, complete_ptu]
    have hw : t.wires = (endedPorts a z s).wires := by rw [heq, bump_wires, complete_wires]
    rw [← hptu] at hmeas hports hsq hdf
    rw [← hw] at hwires
    have hshows := showsResult hwords fun f hf => by
      unfold resultFigures at hf
      split at hf <;> cases hf
      rfl
    subst hz
    exact ⟨t, hexec, hmeas, hports, hsq, hdf, hslots, hshows, hrest, hpc, hdc, hch, hwires, hframe⟩
  · have hexec : takeInterrupted a s = endInterrupted a m s := by
      simp only [takeInterrupted, hm, hn]
    have heq : endInterrupted a m s = bump clsPort (complete m.slot .interrupted s.tsu.label
        (resultWords 0 m none none) (releaseAux a m.port s)) := rfl
    have hframe : KeepsAllBut [.ptu, .xu] s (endInterrupted a m s) := by simp [KeepsAllBut]
    have hptu : (endInterrupted a m s).ptu = (releaseAux a m.port s).ptu := by
      rw [heq, bump_ptu, complete_ptu]
    generalize endInterrupted a m s = t at hexec heq hframe hptu
    obtain ⟨hwords, hslots, hrest, hpc, hdc, hch⟩ := ended_told (s := s) heq rfl rfl rfl
      (fun q => releaseAux_states a m.port q s) htaken (resultWords_length ..)
    exact ⟨t, congrArg Host.Outcome.next hexec, hptu, hslots, showsResult hwords nofun, hrest, hpc, hdc, hch,
      hframe⟩

end Sys2Proof.Machine
end

section
/-! PROOFS. The boundary work of the port unit: each port's entry, the stagings completed, the notices to
the measurements, and the bumps of PORT. -/

namespace Sys2Proof.Machine

open Sys2Proof.Safety Config

/-! ### A port's entry through the four steps (R129, R130) -/

theorem applyStaged_fields (e : PortEntry) :
    (applyStaged e).active = (match e.staged with | none => e.active | some g => g.settings)
    ∧ (applyStaged e).staged = none ∧ (applyStaged e).lastEdge = e.lastEdge
    ∧ (applyStaged e).lastMessage = e.lastMessage := by
  unfold applyStaged
  rcases h : e.staged with _ | g
  · exact ⟨rfl, h, rfl, rfl⟩
  · exact ⟨rfl, rfl, rfl, rfl⟩

theorem takeState_fields (n : PortState) (e : PortEntry) : (takeState n e).active = e.active
    ∧ (takeState n e).staged = e.staged ∧ (takeState n e).lastEdge = e.lastEdge
    ∧ (takeState n e).lastMessage = e.lastMessage := by
  cases n
  · rw [takeState_off]; split <;> exact ⟨rfl, rfl, rfl, rfl⟩
  · rw [takeState_squelched]; split <;> exact ⟨rfl, rfl, rfl, rfl⟩
  · rw [takeState_running]; split <;> exact ⟨rfl, rfl, rfl, rfl⟩

theorem armPeriod_rest (v : WorkView) (e : PortEntry) :
    armPeriod v e = { e with armed := (armPeriod v e).armed } := by
  unfold armPeriod
  split <;> rfl

/-- The entry after the work, but for what the state decides. -/
theorem workEntry_fields (v : WorkView) (e : PortEntry) :
    (workEntry v e).state = evalState v (workEntry v e).active
    ∧ (workEntry v e).active = (match e.staged with | none => e.active | some g => g.settings)
    ∧ (workEntry v e).staged = none ∧ (workEntry v e).measuring = e.measuring
    ∧ (workEntry v e).lastEdge = e.lastEdge ∧ (workEntry v e).lastMessage = e.lastMessage
    ∧ (workEntry v e).pin = (takeState (workEntry v e).state (applyStaged e)).pin := by
  obtain ⟨hactive, hstaged, hedge, hmsg⟩ := applyStaged_fields e
  have hmeas := workEntry_measuring v e
  obtain ⟨hta, hts, hte, htm⟩ := takeState_fields (evalState v (applyStaged e).active) (applyStaged e)
  have hst := takeState_state (evalState v (applyStaged e).active) (applyStaged e)
  have hwork : workEntry v e
      = armPeriod v (fixMessages v (takeState (evalState v (applyStaged e).active) (applyStaged e))) := rfl
  rw [armPeriod_rest] at hwork
  have hstate : (workEntry v e).state = evalState v (applyStaged e).active :=
    (congrArg PortEntry.state hwork).trans hst
  have hact : (workEntry v e).active = (applyStaged e).active := (congrArg PortEntry.active hwork).trans hta
  refine ⟨by rw [hstate, hact], hact.trans hactive, (congrArg PortEntry.staged hwork).trans (hts.trans hstaged),
    hmeas, (congrArg PortEntry.lastEdge hwork).trans (hte.trans hedge),
    (congrArg PortEntry.lastMessage hwork).trans (htm.trans hmsg), ?_⟩
  rw [hstate]
  exact (congrArg PortEntry.pin hwork :)

/-- The table of R130. -/
theorem evalState_told (v : WorkView) (g : PortSettings) :
    (g.mode = .off → evalState v g = .off)
    ∧ (g.mode ≠ .off → v.bnd.warmUp = true → v.start = false → evalState v g = .squelched)
    ∧ (g.mode ≠ .off → v.bnd.warmUp = false ∨ v.start = true →
      (g.policy = .runAlways → evalState v g = .running)
      ∧ (g.policy = .onBudget → evalState v g = if g.limit < v.values.u then .squelched else .running)
      ∧ (g.policy = .unlocked → evalState v g
        = if v.loop = .freeRun ∨ v.loop = .holdover then .squelched else .running)) := by
  refine ⟨fun hm => if_pos hm, fun hm hw hs => (if_neg hm).trans (if_pos ⟨hw, hs⟩), fun hm hw => ?_⟩
  have hno : ¬(v.bnd.warmUp = true ∧ v.start = false) := by
    rintro ⟨h1, h2⟩
    rw [h1, h2] at hw
    exact hw.elim nofun nofun
  unfold evalState
  rw [if_neg hm, if_neg hno]
  refine ⟨fun hp => ?_, fun hp => ?_, fun hp => ?_⟩ <;> rw [hp]

/-- Periods and pin of a port that the work leaves OFF or SQUELCHED in another state (R123). -/
theorem workEntry_cancelled (v : WorkView) (e : PortEntry) (hr : (workEntry v e).state ≠ .running)
    (hne : e.state ≠ (workEntry v e).state) :
    (workEntry v e).armed = [] ∧ (workEntry v e).progress = none := by
  obtain ⟨hst, -, -, -, -⟩ := applyStaged_keeps e
  obtain ⟨hstate, -, -, -, -, -, -⟩ := workEntry_fields v e
  have hact : (workEntry v e).active = (applyStaged e).active :=
    (workEntry_fields v e).2.1.trans (applyStaged_fields e).1.symm
  rw [hact] at hstate
  have hwork : workEntry v e = armPeriod v (fixMessages v (takeState (workEntry v e).state (applyStaged e))) := by
    rw [hstate]; rfl
  generalize (workEntry v e).state = n at hwork hr hne
  rw [← hst] at hne
  have hcancel : ∃ l, takeState n (applyStaged e) = cancelPeriods l { applyStaged e with state := n } := by
    cases n with
    | off => exact ⟨_, (takeState_off _).trans (if_neg hne)⟩
    | squelched => exact ⟨_, (takeState_squelched _).trans (if_neg hne)⟩
    | running => exact absurd rfl hr
  obtain ⟨l, hl⟩ := hcancel
  rw [hwork, hl]
  have hidle : armPeriod v (fixMessages v (cancelPeriods l { applyStaged e with state := n }))
      = fixMessages v (cancelPeriods l { applyStaged e with state := n }) := if_neg hr
  rw [hidle]
  exact ⟨rfl, rfl⟩

/-- Periods of a port that the work leaves RUNNING (R124, R135). -/
theorem workEntry_running (v : WorkView) (e : PortEntry) (hr : (workEntry v e).state = .running) :
    (workEntry v e).armed = e.armed.map (fixPlan v) ++ [⟨(workEntry v e).active, v.bnd.second + 1, none⟩]
    ∧ (workEntry v e).progress = e.progress.map fun pr => { pr with plan := fixPlan v pr.plan } := by
  obtain ⟨-, -, -, harm, hprog⟩ := applyStaged_keeps e
  obtain ⟨hstate, -, -, -, -, -, -⟩ := workEntry_fields v e
  have hact : (workEntry v e).active = (applyStaged e).active :=
    (workEntry_fields v e).2.1.trans (applyStaged_fields e).1.symm
  rw [hact, hr] at hstate
  have hwork : workEntry v e = armPeriod v (fixMessages v (takeState .running (applyStaged e))) := by
    rw [hstate]; rfl
  have hkeep : (takeState .running (applyStaged e)).armed = e.armed
      ∧ (takeState .running (applyStaged e)).progress = e.progress := by
    rw [takeState_running, ← harm, ← hprog]
    split <;> exact ⟨rfl, rfl⟩
  have harmed : armPeriod v (fixMessages v (takeState .running (applyStaged e)))
      = { fixMessages v (takeState .running (applyStaged e)) with
          armed := (fixMessages v (takeState .running (applyStaged e))).armed
            ++ [⟨(fixMessages v (takeState .running (applyStaged e))).active, v.bnd.second + 1, none⟩] } :=
    if_pos (takeState_state .running (applyStaged e))
  rw [hact, ← (takeState_fields .running (applyStaged e)).1, ← hkeep.1, ← hkeep.2, hwork, harmed]
  exact ⟨rfl, rfl⟩

/-- The pin after the work (R122, R123). -/
theorem workEntry_pin (v : WorkView) (e : PortEntry) :
    ((workEntry v e).state = .squelched → (workEntry v e).pin = (workEntry v e).active.level)
    ∧ ((workEntry v e).state = .off → e.state ≠ .off → (workEntry v e).pin = .highZ)
    ∧ ((workEntry v e).state = .running → e.state ≠ .running →
      (workEntry v e).pin = if (workEntry v e).active.polarity = .normal then .low else .high)
    ∧ ((workEntry v e).state = .running → e.state = .running → (workEntry v e).pin = e.pin) := by
  obtain ⟨hst, -, hpin, -, -⟩ := applyStaged_keeps e
  have hact : (workEntry v e).active = (applyStaged e).active :=
    (workEntry_fields v e).2.1.trans (applyStaged_fields e).1.symm
  have hwork : (workEntry v e).pin = (takeState (workEntry v e).state (applyStaged e)).pin :=
    (workEntry_fields v e).2.2.2.2.2.2
  refine ⟨fun h => ?_, fun h hne => ?_, fun h hne => ?_, fun h he => ?_⟩ <;> rw [hwork, h]
  · rw [takeState_squelched, hact]
    split <;> rfl
  · rw [takeState_off, hst, if_neg hne]
    rfl
  · rw [takeState_running, hst, if_neg hne, hact]
    cases (applyStaged e).active.polarity <;> rfl
  · rw [takeState_running, hst, if_pos he]
    exact hpin

/-! ### The stagings completed (R133) -/

/-- The completions of the stagings of these ports, one after the other (R133). -/
def stagingsCompleted (l : Label) (ports : Vector PortEntry 12) (ps : List Port) (s : State) : State :=
  ps.foldl (fun s p => completeStaging ports[p].staged l s) s

/-- The staging of port `p` names slot `n`. -/
def Names (ports : Vector PortEntry 12) (p : Port) (n : Slot) : Prop :=
  ∃ (g : PortSettings) (c : Bool), ports[p].staged = some ⟨g, .request n, c⟩

theorem completeStaging_cases {P : State → Prop} (g : Option Staged) (l : Label) (s : State)
    (h : ∀ n k, P (complete n k l [] s)) (h0 : P s) : P (completeStaging g l s) := by
  unfold completeStaging
  split
  · exact h _ _
  · exact h0

theorem completeStaging_completed {s u : State} (h : CompletedFrom s u) (g : Option Staged) (l : Label) :
    CompletedFrom s (completeStaging g l u) :=
  completeStaging_cases (P := CompletedFrom s) g l u (fun _ _ => h.complete ..) h

theorem completeStaging_slot {ports : Vector PortEntry 12} {p : Port} {n : Slot} (l : Label) {s : State}
    (h : ¬Names ports p n ∨ s.xu.slots[n].state ≠ .taken) :
    (completeStaging ports[p].staged l s).xu.slots[n] = s.xu.slots[n] := by
  unfold completeStaging
  split
  · rename_i g m c hst
    by_cases hm : m = n
    · subst hm
      obtain h | h := h
      · exact absurd ⟨g, c, hst⟩ h
      · rw [complete_of_ne _ _ _ h]
    · exact complete_slots_ne hm ..
  · rfl

theorem completeStaging_named {ports : Vector PortEntry 12} {p : Port} {n : Slot} {g : PortSettings}
    {c : Bool} (l : Label) {s : State} (h : ports[p].staged = some ⟨g, .request n, c⟩)
    (ht : s.xu.slots[n].state = .taken) : (completeStaging ports[p].staged l s).xu.slots[n]
      = { s.xu.slots[n] with code := if c then 2 else 1, label := l, state := .done } := by
  have hs := complete_slots_self (if c then Completion.adjusted else .ok) l [] ht
  rw [overwrite_nil] at hs
  rw [h]
  refine hs.trans ?_
  cases c <;> rfl

theorem stagingsCompleted_completed {s u : State} (h : CompletedFrom s u) (l : Label)
    (ports : Vector PortEntry 12) (ps : List Port) : CompletedFrom s (stagingsCompleted l ports ps u) :=
  foldl_keeps (P := CompletedFrom s) (fun _ _ h => completeStaging_completed h _ l) ps h

/-- A slot that none of the stagings names, or that is not TAKEN, is left (R171). -/
theorem stagingsCompleted_slot {ports : Vector PortEntry 12} {ps : List Port} {n : Slot} (l : Label)
    {s : State} (h : (∀ p ∈ ps, ¬Names ports p n) ∨ s.xu.slots[n].state ≠ .taken) :
    (stagingsCompleted l ports ps s).xu.slots[n] = s.xu.slots[n] := by
  induction ps generalizing s with
  | nil => rfl
  | cons p ps ih =>
    have hp : (completeStaging ports[p].staged l s).xu.slots[n] = s.xu.slots[n] :=
      completeStaging_slot l (h.imp_left fun h => h p (List.mem_cons_self ..))
    refine (ih ?_).trans hp
    rw [hp]
    exact h.imp_left fun h q hq => h q (List.mem_cons_of_mem _ hq)

/-- A TAKEN slot that one staging alone names completes with it (R133). -/
theorem stagingsCompleted_named {ports : Vector PortEntry 12} {ps : List Port} {p : Port} {n : Slot}
    {g : PortSettings} {c : Bool} (l : Label) {s : State} (hp : p ∈ ps)
    (h : ports[p].staged = some ⟨g, .request n, c⟩) (ht : s.xu.slots[n].state = .taken)
    (ho : ∀ q, q ≠ p → ¬Names ports q n) : (stagingsCompleted l ports ps s).xu.slots[n]
      = { s.xu.slots[n] with code := if c then 2 else 1, label := l, state := .done } := by
  induction ps generalizing s with
  | nil => cases hp
  | cons q ps ih =>
    by_cases hq : q = p
    · subst hq
      have hdone := completeStaging_named l h ht
      refine (stagingsCompleted_slot l (s := completeStaging ports[q].staged l s) (.inr ?_)).trans hdone
      rw [hdone]
      nofun
    · have hkeep : (completeStaging ports[q].staged l s).xu.slots[n] = s.xu.slots[n] :=
        completeStaging_slot l (.inl (ho q hq))
      have hps : p ∈ ps := (List.mem_cons.mp hp).resolve_left (Ne.symm hq)
      refine (ih hps (by rw [hkeep]; exact ht)).trans ?_
      rw [hkeep]

/-! ### The work over the ports (R129) -/

theorem complete_setPtu (n : Slot) (k : Completion) (l : Label) (ws : List Word) (x : Ptu) (s : State) :
    complete n k l ws (s.setPtu x) = (complete n k l ws s).setPtu x := by
  by_cases h : s.xu.slots[n].state = .taken
  · have h' : (s.setPtu x).xu.slots[n].state = .taken := h
    rw [complete, complete, if_pos h, if_pos h']
    rfl
  · rw [complete_of_ne k l ws h]
    exact complete_of_ne k l ws (s := s.setPtu x) h

theorem completeStaging_setPtu (g : Option Staged) (l : Label) (x : Ptu) (s : State) :
    completeStaging g l (s.setPtu x) = (completeStaging g l s).setPtu x := by
  unfold completeStaging
  split
  · exact complete_setPtu ..
  · rfl

theorem notifyMeas_setPtu (p : Port) (n : MeasNotice) (x : Ptu) (s : State) :
    (notifyMeas p n s).setPtu x = s.setPtu x := by
  unfold notifyMeas
  split
  · rfl
  · split <;> rfl

/-- Does the port leave RUNNING in the work (R123)? -/
def leavesRunning (v : WorkView) (e : PortEntry) : Bool :=
  e.state == .running && (workEntry v e).state != .running

theorem workPort_eq (v : WorkView) (s : State) (p : Port) : workPort v s p
    = if leavesRunning v s.ptu.ports[p] then
        notifyMeas p .leftRunning (completeStaging s.ptu.ports[p].staged v.bnd.label (s.updPort p (workEntry v)))
      else completeStaging s.ptu.ports[p].staged v.bnd.label (s.updPort p (workEntry v)) := by
  have hself : (completeStaging s.ptu.ports[p].staged v.bnd.label (s.updPort p (workEntry v))).ptu.ports[p]
      = workEntry v s.ptu.ports[p] := by
    rw [completeStaging_ptu]
    exact updAt_self ..
  unfold workPort
  dsimp only
  rw [hself]
  refine if_congr ?_ rfl rfl
  simp [leavesRunning]

theorem workPort_ports (v : WorkView) (s : State) (p : Port) :
    (workPort v s p).ptu.ports = updAt s.ptu.ports p (workEntry v) := by
  have hu : (completeStaging s.ptu.ports[p].staged v.bnd.label (s.updPort p (workEntry v))).ptu.ports
      = updAt s.ptu.ports p (workEntry v) := by rw [completeStaging_ptu]; rfl
  rw [workPort_eq]
  split
  · exact (notifyMeas_ports ..).trans hu
  · exact hu

theorem workPort_setPtu (v : WorkView) (s : State) (p : Port) (x : Ptu) : (workPort v s p).setPtu x
    = completeStaging s.ptu.ports[p].staged v.bnd.label (s.setPtu x) := by
  have hu : (completeStaging s.ptu.ports[p].staged v.bnd.label (s.updPort p (workEntry v))).setPtu x
      = completeStaging s.ptu.ports[p].staged v.bnd.label (s.setPtu x) := by
    rw [← completeStaging_setPtu]
    rfl
  rw [workPort_eq]
  split
  · rw [notifyMeas_setPtu, hu]
  · exact hu

/-- The work over distinct ports works each of them once. -/
theorem worked_port {v : WorkView} {ps : List Port} (hps : ps.Nodup) (s : State) (q : Port) :
    (ps.foldl (workPort v) s).ptu.ports[q]
      = if q ∈ ps then workEntry v s.ptu.ports[q] else s.ptu.ports[q] := by
  induction ps generalizing s with
  | nil => rfl
  | cons p ps ih =>
    obtain ⟨hp, hps⟩ := List.nodup_cons.mp hps
    rw [List.foldl_cons, ih hps, workPort_ports]
    by_cases hq : q = p
    · subst hq
      rw [if_neg hp, if_pos (List.mem_cons_self ..), updAt_self]
    · rw [updAt_ne _ _ (Ne.symm hq)]
      exact if_congr (by simp [hq]) rfl rfl

/-- Beside the port unit the work only completes the stagings that the ports had. -/
theorem worked_setPtu {v : WorkView} {ps : List Port} (hps : ps.Nodup) (ports : Vector PortEntry 12)
    (x : Ptu) (s : State) (h : ∀ p ∈ ps, s.ptu.ports[p] = ports[p]) :
    (ps.foldl (workPort v) s).setPtu x = stagingsCompleted v.bnd.label ports ps (s.setPtu x) := by
  induction ps generalizing s with
  | nil => rfl
  | cons p ps ih =>
    obtain ⟨hp, hps⟩ := List.nodup_cons.mp hps
    have hrest : ∀ q ∈ ps, (workPort v s p).ptu.ports[q] = ports[q] := fun q hq => by
      have hpq : p ≠ q := fun e => hp (e ▸ hq)
      rw [workPort_ports, updAt_ne _ _ hpq]
      exact h q (List.mem_cons_of_mem _ hq)
    rw [List.foldl_cons, ih hps _ hrest, workPort_setPtu, h p (List.mem_cons_self ..)]
    rfl

/-! ### The notices to the measurements (R123) -/

/-- A measurement with a further notice. -/
def noticed (n : MeasNotice) (m : DelayMeas) : DelayMeas := { m with notices := m.notices ++ [n] }

theorem notifyMeas_meas (p : Port) (n : MeasNotice) (s : State) (a : AuxId) :
    (notifyMeas p n s).ptu.meas[a] = if s.ptu.ports[p].measuring = some a
      then s.ptu.meas[a].map (noticed n) else s.ptu.meas[a] := by
  unfold notifyMeas
  rcases hp : s.ptu.ports[p].measuring with _ | b
  · rfl
  · dsimp only
    by_cases hb : b = a
    · subst hb
      rw [if_pos rfl]
      rcases hm : s.ptu.meas[b] with _ | m
      · exact hm
      · exact Vector.getElem_set_self ..
    · rw [if_neg fun h => hb (Option.some.inj h)]
      rcases s.ptu.meas[b] with _ | m
      · rfl
      · exact Vector.getElem_set_ne b.isLt a.isLt fun h => hb (Fin.ext h)

theorem workPort_meas (v : WorkView) (s : State) (p : Port) (a : AuxId) : (workPort v s p).ptu.meas[a]
    = if leavesRunning v s.ptu.ports[p] = true ∧ s.ptu.ports[p].measuring = some a
      then s.ptu.meas[a].map (noticed .leftRunning) else s.ptu.meas[a] := by
  have hu : (completeStaging s.ptu.ports[p].staged v.bnd.label (s.updPort p (workEntry v))).ptu
      = (s.updPort p (workEntry v)).ptu := completeStaging_ptu ..
  have hself : (s.updPort p (workEntry v)).ptu.ports[p].measuring = s.ptu.ports[p].measuring := by
    refine (congrArg PortEntry.measuring (updAt_self ..)).trans ?_
    exact workEntry_measuring ..
  rw [workPort_eq]
  by_cases hl : leavesRunning v s.ptu.ports[p] = true
  · rw [if_pos hl, notifyMeas_meas, hu, hself]
    exact if_congr (and_iff_right hl).symm rfl rfl
  · rw [if_neg hl, if_neg fun h => hl h.1, hu]
    rfl

/-- A record that no port of these leaves by its work is as it was. -/
theorem worked_meas_kept {v : WorkView} {ps : List Port} (hps : ps.Nodup) {s : State} {a : AuxId}
    (h : s.ptu.meas[a] = none
      ∨ ∀ p ∈ ps, ¬(leavesRunning v s.ptu.ports[p] = true ∧ s.ptu.ports[p].measuring = some a)) :
    (ps.foldl (workPort v) s).ptu.meas[a] = s.ptu.meas[a] := by
  induction ps generalizing s with
  | nil => rfl
  | cons p ps ih =>
    obtain ⟨hp, hps⟩ := List.nodup_cons.mp hps
    have hstep : (workPort v s p).ptu.meas[a] = s.ptu.meas[a] := by
      rw [workPort_meas]
      obtain h | h := h
      · rw [h]; exact ite_self _
      · exact if_neg (h p (List.mem_cons_self ..))
    refine (ih hps ?_).trans hstep
    rw [hstep]
    refine h.imp_right fun h q hq => ?_
    have hpq : p ≠ q := fun e => hp (e ▸ hq)
    rw [workPort_ports, updAt_ne _ _ hpq]
    exact h q (List.mem_cons_of_mem _ hq)

/-- The record of the one port that it measures hears that the port left RUNNING (R123). -/
theorem worked_meas_left {v : WorkView} {ps : List Port} (hps : ps.Nodup) {s : State} {a : AuxId} {p : Port}
    (hp : p ∈ ps) (hl : leavesRunning v s.ptu.ports[p] = true) (hm : s.ptu.ports[p].measuring = some a)
    (ho : ∀ q, q ≠ p → s.ptu.ports[q].measuring ≠ some a) : (ps.foldl (workPort v) s).ptu.meas[a]
      = s.ptu.meas[a].map (noticed .leftRunning) := by
  induction ps generalizing s with
  | nil => cases hp
  | cons q ps ih =>
    obtain ⟨hq, hps⟩ := List.nodup_cons.mp hps
    have hports : ∀ x, x ≠ q → (workPort v s q).ptu.ports[x] = s.ptu.ports[x] := fun x hx => by
      rw [workPort_ports, updAt_ne _ _ (Ne.symm hx)]
    by_cases hqp : q = p
    · subst hqp
      refine (worked_meas_kept hps (.inr fun x hx hxl => ?_)).trans ((workPort_meas ..).trans (if_pos ⟨hl, hm⟩))
      have hxq : x ≠ q := fun e => hq (e ▸ hx)
      rw [hports x hxq] at hxl
      exact ho x hxq hxl.2
    · have hpq : p ≠ q := Ne.symm hqp
      have hstep : (workPort v s q).ptu.meas[a] = s.ptu.meas[a] := by
        rw [workPort_meas]
        exact if_neg fun h => ho q hqp h.2
      have hall : ∀ x, x ≠ p → (workPort v s q).ptu.ports[x].measuring ≠ some a := fun x hx => by
        by_cases hxq : x = q
        · subst hxq
          rw [workPort_ports, updAt_self, workEntry_measuring]
          exact ho x hx
        · rw [hports x hxq]
          exact ho x hx
      rw [List.foldl_cons, ih hps ((List.mem_cons.mp hp).resolve_left hpq) (by rw [hports p hpq]; exact hl)
        (by rw [hports p hpq]; exact hm) hall, hstep]

/-! ### The bumps of PORT and the settling (R131) -/

theorem bumpPorts_attn (k : Nat) (c : AttnClass) (s : State) : (bumpPorts k s).xu.attn[c]
    = { s.xu.attn[c] with
        pending := s.xu.attn[c].pending || decide (0 < if clsPort = c then k else 0)
        count := s.xu.attn[c].count + BitVec.ofNat 16 (if clsPort = c then k else 0) } := by
  induction k generalizing s with
  | zero => simp [bumpPorts]
  | succ k ih =>
    rw [bumpPorts, ih, bump_attn_count]
    by_cases hc : clsPort = c
    · simp only [if_pos hc]
      simp [Nat.add_comm k 1, BitVec.ofNat_add, BitVec.add_assoc]
    · simp [hc]

theorem bumpPorts_xu (k : Nat) (s : State) : (bumpPorts k s).xu = { s.xu with
    attn := (bumpPorts k s).xu.attn
    inta := (bumpPorts k s).xu.inta
    intb := (bumpPorts k s).xu.intb } := by
  induction k generalizing s with
  | zero => rfl
  | succ k ih => exact (ih (bump clsPort s)).trans rfl

theorem settleSquelched_eq (s : State) : settleSquelched s = { s with
    ptu := { s.ptu with squelched := anySquelched s.ptu }
    wires := { s.wires with
      conds := s.wires.conds ++ handed codeSquelched s.ptu.squelched (anySquelched s.ptu) } } := by
  rw [settleSquelched, handIfChanged_eq]
  rfl

theorem anySquelched_iff (t : Ptu) : anySquelched t = true ↔ ∃ p : Port, t.ports[p].state = .squelched := by
  simp [anySquelched]

theorem countChanged_eq (t u : Ptu) : countChanged (portStates t) (portStates u)
    = ((List.finRange 12).filter fun p : Port => decide (t.ports[p].state ≠ u.ports[p].state)).length := by
  have hb : ∀ a b : PortState, (a != b) = decide (a ≠ b) := fun _ _ => (decide_not ..).symm
  unfold countChanged portStates
  simp only [hb]
  simp

/-! ### The whole work -/

theorem workPort_rest (v : WorkView) (s : State) (p : Port) :
    (workPort v s p).ptu.squelched = s.ptu.squelched
    ∧ (workPort v s p).ptu.delayFailed = s.ptu.delayFailed := by
  have hu : (completeStaging s.ptu.ports[p].staged v.bnd.label (s.updPort p (workEntry v))).ptu
      = (s.updPort p (workEntry v)).ptu := completeStaging_ptu ..
  have hn : ∀ u : State, (notifyMeas p .leftRunning u).ptu.squelched = u.ptu.squelched
      ∧ (notifyMeas p .leftRunning u).ptu.delayFailed = u.ptu.delayFailed := fun u => by
    unfold notifyMeas
    split
    · exact ⟨rfl, rfl⟩
    · split <;> exact ⟨rfl, rfl⟩
  rw [workPort_eq]
  split
  · rw [(hn _).1, (hn _).2, hu]
    exact ⟨rfl, rfl⟩
  · rw [hu]
    exact ⟨rfl, rfl⟩

theorem worked_rest (v : WorkView) (ps : List Port) (s : State) :
    (ps.foldl (workPort v) s).ptu.squelched = s.ptu.squelched
    ∧ (ps.foldl (workPort v) s).ptu.delayFailed = s.ptu.delayFailed :=
  foldl_keeps (P := fun u : State => u.ptu.squelched = s.ptu.squelched ∧ u.ptu.delayFailed = s.ptu.delayFailed)
    (fun u p h => ⟨(workPort_rest v u p).1.trans h.1, (workPort_rest v u p).2.trans h.2⟩) ps ⟨rfl, rfl⟩

theorem stagingsCompleted_frame (l : Label) (ports : Vector PortEntry 12) (ps : List Port) (s : State) :
    KeepsAllBut [.xu] s (stagingsCompleted l ports ps s) :=
  foldl_keeps (P := KeepsAllBut [.xu] s)
    (fun u p h => h.trans (by simp [KeepsAllBut])) ps (.refl _ s)

/-- What follows the work over the ports: PORT-SQUELCHED settled, PORT bumped `k` times, and the states
handed on (R131). -/
def finished (k : Nat) (w : State) : State :=
  (bumpPorts k (settleSquelched w)).setWires { (bumpPorts k (settleSquelched w)).wires with
    xuPorts := (bumpPorts k (settleSquelched w)).wires.xuPorts
      ++ [portStates (bumpPorts k (settleSquelched w)).ptu] }

theorem finished_ptu (k : Nat) (w : State) :
    (finished k w).ptu = { w.ptu with squelched := anySquelched w.ptu } := by
  have h : (finished k w).ptu = (bumpPorts k (settleSquelched w)).ptu := rfl
  rw [h, bumpPorts_ptu, settleSquelched_eq]

theorem finished_wires (k : Nat) (w : State) : (finished k w).wires = { w.wires with
    xuPorts := w.wires.xuPorts ++ [w.ptu.ports.map (·.state)]
    conds := w.wires.conds ++ handed codeSquelched w.ptu.squelched (anySquelched w.ptu) } := by
  unfold finished
  rw [bumpPorts_wires, bumpPorts_ptu, settleSquelched_eq]
  rfl

theorem bumpPorts_congr (k : Nat) {a b : State} (h : a.xu = b.xu) : (bumpPorts k a).xu = (bumpPorts k b).xu := by
  induction k generalizing a b with
  | zero => exact h
  | succ k ih => exact ih (by unfold bump; simp [h])

theorem finished_xu (k : Nat) (w : State) : (finished k w).xu = (bumpPorts k w).xu := by
  have h : (finished k w).xu = (bumpPorts k (settleSquelched w)).xu := rfl
  rw [h]
  exact bumpPorts_congr k (settleSquelched_xu w)

section Work

variable (v : WorkView) (s : State)

/-- The stagings of all ports completed (R133). -/
def allCompleted : State := stagingsCompleted v.bnd.label s.ptu.ports (List.finRange 12) s

/-- The work over all ports (R129). -/
def allWorked : State := (List.finRange 12).foldl (workPort v) s

/-- How many ports the work leaves in another state (R131). -/
def changedPorts : Nat :=
  ((List.finRange 12).filter fun p : Port =>
    decide (s.ptu.ports[p].state ≠ (boundaryWork v s).ptu.ports[p].state)).length

theorem allWorked_setPtu : (allWorked v s).setPtu s.ptu = allCompleted v s := by
  unfold allWorked allCompleted
  rw [worked_setPtu (List.nodup_finRange 12) s.ptu.ports s.ptu s fun _ _ => rfl]
  rfl

theorem boundaryWork_allWorked : (boundaryWork v s).ptu.ports = (allWorked v s).ptu.ports
    ∧ (boundaryWork v s).ptu.meas = (allWorked v s).ptu.meas := by
  unfold allWorked
  exact boundaryWork_ports v s

theorem allWorked_rest : (allWorked v s).ptu.squelched = s.ptu.squelched
    ∧ (allWorked v s).ptu.delayFailed = s.ptu.delayFailed := by
  unfold allWorked
  exact worked_rest v (List.finRange 12) s

theorem allCompleted_frame : KeepsAllBut [.xu] s (allCompleted v s) := by
  unfold allCompleted
  exact stagingsCompleted_frame ..

theorem allWorked_xu_wires :
    (allWorked v s).xu = (allCompleted v s).xu ∧ (allWorked v s).wires = s.wires := by
  rw [← (allCompleted_frame v s).wires_eq (by decide), ← allWorked_setPtu]
  exact ⟨State.setPtu_xu .. |>.symm, State.setPtu_wires .. |>.symm⟩

theorem boundaryWork_port (p : Port) : (boundaryWork v s).ptu.ports[p] = workEntry v s.ptu.ports[p] := by
  rw [(boundaryWork_ports v s).1, worked_port (List.nodup_finRange 12), if_pos (List.mem_finRange p)]

theorem boundaryWork_eq : boundaryWork v s = finished (changedPorts v s) (allWorked v s) := by
  have hports := (boundaryWork_allWorked v s).1
  have hk : countChanged (portStates s.ptu) (portStates (settleSquelched (allWorked v s)).ptu)
      = changedPorts v s := by
    rw [countChanged_eq, changedPorts, hports, (settleSquelched_ports _).1]
  have hu : ∀ w, w = allWorked v s → boundaryWork v s
      = finished (countChanged (portStates s.ptu) (portStates (settleSquelched w).ptu)) w := by
    intro w hw
    unfold boundaryWork finished
    rw [allWorked] at hw
    rw [← hw]
  rw [hu _ rfl, hk]

theorem boundaryWork_ptu : (boundaryWork v s).ptu.squelched = anySquelched (boundaryWork v s).ptu
    ∧ (boundaryWork v s).ptu.delayFailed = s.ptu.delayFailed := by
  obtain ⟨-, hd⟩ := allWorked_rest v s
  rw [boundaryWork_eq, finished_ptu]
  generalize allWorked v s = w at hd
  exact ⟨rfl, hd⟩

theorem handed_after (c : AlarmCode) (before after : Bool) :
    handed c before after = if after = before then [] else [⟨c, after⟩] := if_congr eq_comm rfl rfl

theorem boundaryWork_wires : (boundaryWork v s).wires = { s.wires with
    xuPorts := s.wires.xuPorts ++ [(boundaryWork v s).ptu.ports.map (·.state)]
    conds := s.wires.conds ++ handed codeSquelched s.ptu.squelched (boundaryWork v s).ptu.squelched } := by
  obtain ⟨hsq, -⟩ := allWorked_rest v s
  obtain ⟨-, hw⟩ := allWorked_xu_wires v s
  rw [boundaryWork_eq, finished_wires, finished_ptu, hw, hsq]

theorem boundaryWork_xu : (boundaryWork v s).xu = (bumpPorts (changedPorts v s) (allCompleted v s)).xu := by
  rw [boundaryWork_eq, finished_xu]
  exact bumpPorts_congr _ (allWorked_xu_wires v s).1

theorem allCompleted_completed : CompletedFrom s (allCompleted v s) := by
  unfold allCompleted
  exact stagingsCompleted_completed (completedFrom_of_eq rfl rfl rfl fun _ => rfl) ..

theorem boundaryWork_slots : (boundaryWork v s).xu.slots = (allCompleted v s).xu.slots := by
  rw [boundaryWork_xu, bumpPorts_xu]

theorem bumpsShown_boundaryWork (c : AttnClass) : bumpsShown s (boundaryWork v s) c
    = bumpsShown s (allCompleted v s) c + if clsPort = c then changedPorts v s else 0 := by
  have hk := allCompleted_frame v s
  have hf := boundaryWork_frame v s
  by_cases hc : clsPort = c
  · subst hc
    have h0 : bumpsShown s (allCompleted v s) clsPort = 0 := by
      refine (if_neg (by decide)).trans ((if_neg (by decide)).trans ((if_neg (by decide)).trans
        ((if_pos rfl).trans (List.countP_eq_zero.mpr fun p _ h => of_decide_eq_true h ?_))))
      rw [hk.ptu_eq (by decide)]
    rw [h0, if_pos rfl, Nat.zero_add]
    refine (if_neg (by decide)).trans ((if_neg (by decide)).trans ((if_neg (by decide)).trans
      ((if_pos rfl).trans ?_)))
    exact List.countP_eq_length_filter ..
  · rw [if_neg hc, Nat.add_zero, bumpsShown, bumpsShown, if_neg (c := c = clsPort) (Ne.symm hc),
      if_neg (c := c = clsPort) (Ne.symm hc), boundaryWork_slots, hf.alu_eq (by decide),
      hf.qsu_eq (by decide), hk.alu_eq (by decide), hk.qsu_eq (by decide)]

theorem attnBumped_boundaryWork : AttnBumped [] s (boundaryWork v s) := by
  rintro c n rfl
  have hc := (allCompleted_completed v s).2.2 c _ rfl
  rw [boundaryWork_xu, bumpPorts_attn, hc, bumpsShown_boundaryWork]
  by_cases hp : clsPort = c
  · have hpos : ∀ a b : Nat, (decide (0 < a) || decide (0 < b)) = decide (0 < a + b) := fun a b => by
      rw [← Bool.decide_or, decide_eq_decide]
      omega
    subst hp
    dsimp only
    rw [if_pos rfl, List.count_nil, Nat.add_zero, Nat.add_zero, Bool.or_assoc, hpos, BitVec.add_assoc,
      ← BitVec.ofNat_add]
  · simp [hp]

theorem changesXu_boundaryWork :
    ChangesXu (boundaryWork v s).xu.slots s.xu.unit [] s (boundaryWork v s) := by
  refine ⟨?_, attnBumped_boundaryWork v s⟩
  have hx := bumpPorts_xu (changedPorts v s) (allCompleted v s)
  rw [(allCompleted_completed v s).1, ← boundaryWork_xu, ← boundaryWork_slots] at hx
  exact hx

end Work

theorem leavesRunning_iff {v : WorkView} {e : PortEntry} : leavesRunning v e = true
    ↔ e.state = .running ∧ (workEntry v e).state ≠ .running := by
  simp [leavesRunning]

/-- The one record of a port hears what its port does (R123, R141). -/
theorem boundaryWork_meas {v : WorkView} {s : State} (hlaw : ClaimLaw s) {a : AuxId} {m : DelayMeas}
    (hm : s.ptu.meas[a] = some m) :
    (s.ptu.ports[m.port].state = .running → (boundaryWork v s).ptu.ports[m.port].state ≠ .running →
      (boundaryWork v s).ptu.meas[a] = some { m with notices := m.notices ++ [.leftRunning] })
    ∧ (s.ptu.ports[m.port].state ≠ .running ∨ (boundaryWork v s).ptu.ports[m.port].state = .running →
      (boundaryWork v s).ptu.meas[a] = some m) := by
  have hmine : s.ptu.ports[m.port].measuring = some a := (hlaw m.port a).mpr (by rw [hm]; rfl)
  have hothers : ∀ q, q ≠ m.port → s.ptu.ports[q].measuring ≠ some a := fun q hq h => by
    have hq' := (hlaw q a).mp h
    rw [hm] at hq'
    exact hq (Option.some.inj hq').symm
  rw [boundaryWork_port, (boundaryWork_ports v s).2]
  refine ⟨fun hr hl => ?_, fun h => ?_⟩
  · rw [worked_meas_left (List.nodup_finRange 12) (List.mem_finRange m.port)
      (leavesRunning_iff.mpr ⟨hr, hl⟩) hmine hothers, hm]
    rfl
  · rw [worked_meas_kept (List.nodup_finRange 12) (.inr fun q _ hq => ?_), hm]
    have hqm : q = m.port := by
      by_contra hne
      exact hothers q hne hq.2
    subst hqm
    obtain ⟨hr, hl⟩ := leavesRunning_iff.mp hq.1
    exact h.elim (fun h => h hr) hl

theorem boundaryWork_meas_none {v : WorkView} {s : State} {a : AuxId} (h : s.ptu.meas[a] = none) :
    (boundaryWork v s).ptu.meas[a] = none := by
  rw [(boundaryWork_ports v s).2, worked_meas_kept (List.nodup_finRange 12) (.inl h), h]

/-- A request that one staging alone names completes as the staging is applied (R133, R171). -/
theorem boundaryWork_completes {v : WorkView} {s : State} {p : Port} {n : Slot} {g : PortSettings} {c : Bool}
    (h : s.ptu.ports[p].staged = some ⟨g, .request n, c⟩) (ht : s.xu.slots[n].state = .taken)
    (ho : ∀ q, q ≠ p → ¬Names s.ptu.ports q n) :
    (boundaryWork v s).xu.slots[n]
      = { s.xu.slots[n] with code := if c then 2 else 1, label := v.bnd.label, state := .done }
    ∧ (boundaryWork v s).xu.attn[clsDone].pending = true := by
  have hslot : (boundaryWork v s).xu.slots[n]
      = { s.xu.slots[n] with code := if c then 2 else 1, label := v.bnd.label, state := .done } := by
    rw [boundaryWork_slots, allCompleted, stagingsCompleted_named v.bnd.label (List.mem_finRange p) h ht ho]
  refine ⟨hslot, ?_⟩
  have hpos : 0 < bumpsShown s (boundaryWork v s) clsDone := by
    refine lt_of_lt_of_eq (List.countP_pos_iff.mpr ⟨n, List.mem_finRange n, decide_eq_true ?_⟩) (if_pos rfl).symm
    rw [hslot, ht]
    exact ⟨nofun, rfl⟩
  rw [attnBumped_boundaryWork v s clsDone _ rfl]
  simp [hpos]

theorem boundaryWork_slot_kept {v : WorkView} {s : State} {n : Slot}
    (h : (∀ p, ¬Names s.ptu.ports p n) ∨ s.xu.slots[n].state ≠ .taken) :
    (boundaryWork v s).xu.slots[n] = s.xu.slots[n] := by
  rw [boundaryWork_slots, allCompleted]
  exact stagingsCompleted_slot v.bnd.label (h.imp_left fun h p _ => h p)

/-- The counts of DONE and PORT after the work (R131, R171). -/
theorem boundaryWork_counts (v : WorkView) (s : State) :
    (boundaryWork v s).xu.attn[clsDone].count = s.xu.attn[clsDone].count + BitVec.ofNat 16
        ((List.finRange 16).filter fun n : Slot => decide (s.xu.slots[n].state ≠ .done
          ∧ (boundaryWork v s).xu.slots[n].state = .done)).length
    ∧ (boundaryWork v s).xu.attn[clsPort].count = s.xu.attn[clsPort].count + BitVec.ofNat 16
        ((List.finRange 12).filter fun p : Port =>
          decide (s.ptu.ports[p].state ≠ (boundaryWork v s).ptu.ports[p].state)).length := by
  have hdone : bumpsShown s (boundaryWork v s) clsDone = ((List.finRange 16).filter fun n : Slot =>
      decide (s.xu.slots[n].state ≠ .done ∧ (boundaryWork v s).xu.slots[n].state = .done)).length :=
    (if_pos rfl).trans (List.countP_eq_length_filter ..)
  have hport : bumpsShown s (boundaryWork v s) clsPort = ((List.finRange 12).filter fun p : Port =>
      decide (s.ptu.ports[p].state ≠ (boundaryWork v s).ptu.ports[p].state)).length :=
    (if_neg (by decide)).trans ((if_neg (by decide)).trans ((if_neg (by decide)).trans
      ((if_pos rfl).trans (List.countP_eq_length_filter ..))))
  rw [attnBumped_boundaryWork v s clsDone _ rfl, attnBumped_boundaryWork v s clsPort _ rfl, ← hdone, ← hport]
  exact ⟨rfl, rfl⟩

/-- A port's entry after the work, told as R122 to R124, R130 and R135 do. -/
theorem workEntry_told (v : WorkView) (e : PortEntry) {fix : Plan → Plan} (hfix : fixPlan v = fix)
    {x : PortEntry} (hx : x = workEntry v e) :
    x.staged = none ∧ x.active = (match e.staged with | none => e.active | some g => g.settings)
    ∧ (x.active.mode = .off → x.state = .off)
    ∧ (x.active.mode ≠ .off → v.bnd.warmUp = true → v.start = false → x.state = .squelched)
    ∧ (x.active.mode ≠ .off → v.bnd.warmUp = false ∨ v.start = true →
        (x.active.policy = .runAlways → x.state = .running)
        ∧ (x.active.policy = .onBudget → x.state = if x.active.limit < v.values.u then .squelched else .running)
        ∧ (x.active.policy = .unlocked →
            x.state = if v.loop = .freeRun ∨ v.loop = .holdover then .squelched else .running))
    ∧ (x.state = .squelched → x.pin = x.active.level)
    ∧ (x.state = .off → e.state ≠ .off → x.pin = .highZ)
    ∧ (x.state ≠ .running → e.state ≠ x.state → x.armed = [] ∧ x.progress = none)
    ∧ (x.state = .running → x.armed = e.armed.map fix ++ [⟨x.active, v.bnd.second + 1, none⟩]
        ∧ x.progress = e.progress.map fun pr => { pr with plan := fix pr.plan })
    ∧ (x.state = .running → e.state ≠ .running →
        x.pin = if x.active.polarity = .normal then .low else .high)
    ∧ (x.state = .running → e.state = .running → x.pin = e.pin)
    ∧ x.measuring = e.measuring ∧ x.lastEdge = e.lastEdge ∧ x.lastMessage = e.lastMessage := by
  subst hx hfix
  obtain ⟨hstate, hactive, hstaged, hmeas, hedge, hmsg, -⟩ := workEntry_fields v e
  obtain ⟨hoff, hwarm, hpolicy⟩ := evalState_told v (workEntry v e).active
  rw [← hstate] at hoff hwarm hpolicy
  obtain ⟨hpin1, hpin2, hpin3, hpin4⟩ := workEntry_pin v e
  exact ⟨hstaged, hactive, hoff, hwarm, hpolicy, hpin1, hpin2, workEntry_cancelled v e, workEntry_running v e,
    hpin3, hpin4, hmeas, hedge, hmsg⟩

/-- Settles O48. -/
theorem boundaryWorkSetsThePorts : Obligations.BoundaryWorkSetsThePorts := by
  intro s b bs v vs fix hb hv hfix
  have hfix' : fixPlan (viewOf b v s) = fix := funext fun x => (hfix x).symm
  have ht : takeBoundaryWork s
      = boundaryWork (viewOf b v s) (s.setWires { s.wires with ptuBnd := bs, ptuValues := vs }) := by
    simp only [takeBoundaryWork, hb, hv]
  have hframe := takeBoundaryWork_frame s
  rw [ht] at hframe
  refine ⟨_, congrArg Host.Outcome.next ht, fun p e x he hx => ?_, fun p n g c hst htaken hother => ?_,
    fun n hno => ?_, fun n hn => ?_, ?_, ?_, ?_, fun hlaw a m hm => ?_, fun a ha => ?_, ?_, ?_, ?_, hframe⟩
  · subst he
    exact workEntry_told (viewOf b v s) s.ptu.ports[p] hfix' (hx.trans (boundaryWork_port ..))
  · exact boundaryWork_completes (s := s.setWires { s.wires with ptuBnd := bs, ptuValues := vs }) hst htaken
      fun q hq ⟨g', c', hn⟩ => hother q g' c' hq hn
  · exact boundaryWork_slot_kept (s := s.setWires { s.wires with ptuBnd := bs, ptuValues := vs })
      (.inl fun p ⟨g, c, hn⟩ => hno p g c hn)
  · exact boundaryWork_slot_kept (s := s.setWires { s.wires with ptuBnd := bs, ptuValues := vs }) (.inr hn)
  · obtain ⟨hx, ha⟩ := changesXu_boundaryWork (viewOf b v s)
      (s.setWires { s.wires with ptuBnd := bs, ptuValues := vs })
    exact ⟨hx, attnBumped_from rfl rfl rfl rfl rfl ha⟩
  · exact (boundaryWork_counts (viewOf b v s) (s.setWires { s.wires with ptuBnd := bs, ptuValues := vs })).1
  · exact (boundaryWork_counts (viewOf b v s) (s.setWires { s.wires with ptuBnd := bs, ptuValues := vs })).2
  · exact boundaryWork_meas (s := s.setWires { s.wires with ptuBnd := bs, ptuValues := vs }) hlaw hm
  · exact boundaryWork_meas_none (s := s.setWires { s.wires with ptuBnd := bs, ptuValues := vs }) ha
  · rw [(boundaryWork_ptu ..).1]
    exact anySquelched_iff _
  · exact (boundaryWork_ptu ..).2
  · have hw := boundaryWork_wires (viewOf b v s) (s.setWires { s.wires with ptuBnd := bs, ptuValues := vs })
    rw [handed_after] at hw
    exact hw

end Sys2Proof.Machine
end

section
/-! PROOFS. The port signal: periods, edges, the site time message, and the resumption after a positive
step. -/

namespace Sys2Proof.Machine

open Sys2Proof.Safety Config

/-! ### Points of a period (R124 to R128) -/

/-- Where a point lies is where the model places it (R124). -/
theorem placed_of_liesAt {p : Plan} {x sec ps : Nat} (h : LiesAt p x sec ps) : placed p x = (sec, ps) := by
  obtain ⟨hpoint, hps, hlo, hhi⟩ := h
  have hr : floorGrid ((x : Int) - p.settings.compensation)
      = ((x : Int) - p.settings.compensation) / 125 * 125 := rfl
  have hsecond : ((psPerSecond : Nat) : Int) = 1000000000000 := rfl
  unfold placed
  dsimp only
  rw [hr, hsecond]
  generalize ((x : Int) - p.settings.compensation) / 125 * 125 = r at hpoint
  by_cases h0 : r < 0
  · rw [if_pos h0]
    exact Prod.ext (by dsimp only; omega) (by dsimp only; omega)
  · rw [if_neg h0]
    by_cases h1 : r < 1000000000000
    · rw [if_pos h1]
      exact Prod.ext (by dsimp only; omega) (by dsimp only; omega)
    · rw [if_neg h1]
      exact Prod.ext (by dsimp only; omega) (by dsimp only; omega)

theorem skipped_iff {t : Tsu} {sec ps : Nat} :
    skipped t (sec, ps) = true ↔ sec = t.second ∧ ps < t.skipTo := by
  simp [skipped]

theorem reached_iff {t : Tsu} {sec ps : Nat} : reached t sec ps = true
    ↔ sec < t.second ∨ sec = t.second ∧ t.hold = none ∧ ps ≤ t.frac := by
  simp [reached, and_assoc]

theorem reached_of {t : Tsu} {sec ps : Nat} (h : Reached t sec ps) :
    reached t sec ps = true ∧ skipped t (sec, ps) = false :=
  ⟨reached_iff.mpr h.1, by rw [← Bool.not_eq_true, skipped_iff]; exact h.2⟩

theorem edgeOffset_iff {p : PortSettings} {k x : Nat} :
    EdgeOffset p k x ↔ k < edgeCount p ∧ x = edgeOffset p k := by
  unfold EdgeOffset edgeCount edgeOffset
  cases p.mode <;> simp

theorem exists_edge_iff {p : PortSettings} {k : Nat} : (∃ y, EdgeOffset p k y) ↔ k < edgeCount p := by
  simp only [edgeOffset_iff, exists_and_left, exists_eq, and_true]

theorem no_edge_iff {p : PortSettings} {k : Nat} : (∀ y, ¬EdgeOffset p k y) ↔ edgeCount p ≤ k := by
  rw [← not_exists, exists_edge_iff, Nat.not_lt]

/-! ### How many edges a step skips (R128) -/

/-- A point on the grid lies before a limit exactly where its offset lies below the limit's grid point. -/
theorem floorGrid_lt_iff (y l : Int) : floorGrid y < l ↔ y < ceilGrid l := by
  change y / 125 * 125 < l ↔ y < -(-l / 125 * 125)
  omega

/-- Edge `k` of a FREQUENCY period lies below the bound exactly where `k` is below the closed form. -/
theorem frequency_edge_lt {f k : Nat} (hf : 0 < f) (bound : Int) :
    ((k * 1000000000000 / (2 * f * 125) * 125 : Nat) : Int) < bound
      ↔ k < ((bound.toNat + 124) / 125 * (2 * f * 125) + 999999999999) / 1000000000000 := by
  have hpos : 0 < 2 * f * 125 := by omega
  have hgrid : ((k * 1000000000000 / (2 * f * 125) * 125 : Nat) : Int) < bound
      ↔ k * 1000000000000 / (2 * f * 125) < (bound.toNat + 124) / 125 := by
    generalize k * 1000000000000 / (2 * f * 125) = i
    omega
  rw [hgrid, Nat.div_lt_iff_lt_mul hpos]
  generalize (bound.toNat + 124) / 125 * (2 * f * 125) = m
  omega

theorem edgesBeforeResume_le (t : Tsu) (p : Plan) : edgesBeforeResume t p ≤ edgeCount p.settings := by
  unfold edgesBeforeResume edgeCount
  dsimp only
  split
  · exact Nat.le_refl 0
  · exact Nat.min_le_left ..
  · exact List.length_filter_le ..

/-- The bound that a skipped edge's offset lies below (R128). -/
def resumeBound (t : Tsu) (p : Plan) : Int :=
  ceilGrid ((t.skipTo : Int) + ((t.second : Int) - (p.second : Int)) * (psPerSecond : Int))
    + p.settings.compensation

/-- Of the two edges of a PULSE or TIMECODE period the first lies no later than the second. -/
theorem two_edges_lt {x : Nat → Nat} {b : Int} (hx : x 0 ≤ x 1) {k : Nat} (hk : k < 2) :
    k < ((List.range 2).filter fun k => decide ((x k : Int) < b)).length ↔ (x k : Int) < b := by
  have hrange : List.range 2 = [0, 1] := rfl
  rw [hrange]
  by_cases h1 : (x 1 : Int) < b
  · have h0 : (x 0 : Int) < b := by omega
    obtain rfl | rfl : k = 0 ∨ k = 1 := by omega
    · simp [h0, h1]
    · simp [h0, h1]
  · obtain rfl | rfl : k = 0 ∨ k = 1 := by omega
    · by_cases h0 : (x 0 : Int) < b
      · simp [h0, h1]
      · simp [h0, h1]
    · by_cases h0 : (x 0 : Int) < b
      · simp [h0, h1]
      · simp [h0, h1]

/-- The edges that the count takes are those below the bound. -/
theorem lt_edgesBeforeResume {t : Tsu} {p : Plan} {k : Nat} (hk : k < edgeCount p.settings) :
    k < edgesBeforeResume t p ↔ ((edgeOffset p.settings k : Nat) : Int) < resumeBound t p := by
  have htwo : p.settings.mode ≠ .off → p.settings.mode ≠ .frequency →
      edgesBeforeResume t p = ((List.range 2).filter fun k =>
        decide ((edgeOffset p.settings k : Int) < resumeBound t p)).length
      ∧ edgeOffset p.settings 0 ≤ edgeOffset p.settings 1 ∧ edgeCount p.settings = 2 := by
    intro ho hf
    unfold edgesBeforeResume edgeOffset edgeCount
    cases hm : p.settings.mode
    · exact absurd hm ho
    · exact ⟨rfl, Nat.zero_le _, rfl⟩
    · exact absurd hm hf
    · exact ⟨rfl, Nat.zero_le _, rfl⟩
  by_cases hf : p.settings.mode = .frequency
  · have hcount : edgesBeforeResume t p = min (2 * p.settings.freq)
        ((((resumeBound t p).toNat + 124) / 125 * (2 * p.settings.freq * 125) + 999999999999)
          / 1000000000000) := by
      unfold edgesBeforeResume
      rw [hf]
      rfl
    have hoff : edgeOffset p.settings k = k * 1000000000000 / (2 * p.settings.freq * 125) * 125 := by
      unfold edgeOffset
      rw [hf]
    have hk2 : k < 2 * p.settings.freq := by
      unfold edgeCount at hk
      rwa [hf] at hk
    rw [hcount, hoff, frequency_edge_lt (by omega), Nat.lt_min, and_iff_right hk2]
  · have ho : p.settings.mode ≠ .off := by
      intro ho
      unfold edgeCount at hk
      rw [ho] at hk
      exact Nat.not_lt_zero _ hk
    obtain ⟨hcount, hle, h2⟩ := htwo ho hf
    rw [hcount]
    exact two_edges_lt hle (h2 ▸ hk)

/-- Exactly the edges before the resumption are counted (R128). -/
theorem edgesBeforeResume_eq {t : Tsu} {p : Plan} {n : Nat} {point : Int}
    (hp : point = (t.second : Int) * 1000000000000 + t.skipTo) (h : EarlierEdges p point n) :
    edgesBeforeResume t p = n := by
  obtain ⟨hbefore, hlast⟩ := h
  have hn : n ≤ edgeCount p.settings := by
    rcases Nat.eq_zero_or_pos n with rfl | hpos
    · exact Nat.zero_le _
    · have := exists_edge_iff.mp (hlast hpos)
      omega
  have hN := edgesBeforeResume_le t p
  have hall : ∀ k, k < edgeCount p.settings → (k < edgesBeforeResume t p ↔ k < n) := fun k hk => by
    rw [lt_edgesBeforeResume hk, hbefore k _ (edgeOffset_iff.mpr ⟨hk, rfl⟩), hp, resumeBound]
    have hsecond : ((psPerSecond : Nat) : Int) = 1000000000000 := rfl
    have hgrid := floorGrid_lt_iff ((edgeOffset p.settings k : Int) - p.settings.compensation)
      ((t.skipTo : Int) + ((t.second : Int) - (p.second : Int)) * (psPerSecond : Int))
    have hfloor : floorGrid ((edgeOffset p.settings k : Int) - p.settings.compensation)
        = ((edgeOffset p.settings k : Int) - p.settings.compensation) / 125 * 125 := rfl
    rw [hfloor, hsecond] at hgrid
    rw [hsecond]
    generalize ceilGrid ((t.skipTo : Int) + ((t.second : Int) - (p.second : Int)) * 1000000000000) = c at hgrid
    constructor
    · intro h
      have := hgrid.mpr (by omega)
      omega
    · intro h
      have := hgrid.mp (by omega)
      omega
  rcases Nat.lt_trichotomy (edgesBeforeResume t p) n with hlt | heq | hgt
  · exact absurd ((hall _ (by omega)).mpr hlt) (Nat.lt_irrefl _)
  · exact heq
  · exact absurd ((hall _ (by omega)).mp hgt) (Nat.lt_irrefl _)

/-! ### PERIOD_BEGIN (R124, R138) -/

theorem labelOf_eq (t : Tsu) (sec : Nat) :
    labelOf t sec = if sec = t.second then t.label else t.prevLabel := rfl

theorem notifyMeas_unmeasured {p : Port} {n : MeasNotice} {s : State}
    (h : s.ptu.ports[p].measuring = none) : notifyMeas p n s = s := by
  simp only [notifyMeas, h]

/-- A notice handed to a measurement changes the records alone. -/
theorem notifyMeas_ptu (p : Port) (n : MeasNotice) (s : State) :
    (notifyMeas p n s).ptu.ports = s.ptu.ports ∧ (notifyMeas p n s).ptu.squelched = s.ptu.squelched
    ∧ (notifyMeas p n s).ptu.delayFailed = s.ptu.delayFailed := by
  unfold notifyMeas
  split
  · exact ⟨rfl, rfl, rfl⟩
  · split <;> exact ⟨rfl, rfl, rfl⟩

theorem notifyMeas_measured {p : Port} {n : MeasNotice} {s : State} {a : AuxId} {m : DelayMeas}
    (h : s.ptu.ports[p].measuring = some a) (hm : s.ptu.meas[a] = some m) :
    (notifyMeas p n s).ptu.meas = s.ptu.meas.set a (some { m with notices := m.notices ++ [n] }) := by
  simp only [notifyMeas, h, hm]
  rfl

/-- PERIOD_BEGIN (R124, R138). -/
theorem periodBegin_told (s : State) (p : Port) (plan : Plan) (rest : List Plan) (sec ps : Nat) (l : Label)
    (ha : s.ptu.ports[p].armed = plan :: rest) (hat : LiesAt plan 0 sec ps) (hr : Reached s.tsu sec ps)
    (hl : l = (if sec = s.tsu.second then s.tsu.label else s.tsu.prevLabel)) :
    ∃ t, exec (.periodBegin p) s = .next t
    ∧ t.ptu.ports = s.ptu.ports.set p
        { s.ptu.ports[p] with armed := rest, progress := some ⟨plan, 0, 0⟩ }
    ∧ (∀ (a : AuxId) (m : DelayMeas), s.ptu.ports[p].measuring = some a →
        s.ptu.meas[a] = some m → t.ptu.meas = s.ptu.meas.set a
          (some { m with notices := m.notices ++ [.period (some (⟨l, ps⟩, sec))] }))
    ∧ (s.ptu.ports[p].measuring = none → t.ptu.meas = s.ptu.meas)
    ∧ t.ptu.squelched = s.ptu.squelched ∧ t.ptu.delayFailed = s.ptu.delayFailed
    ∧ KeepsAllBut [.ptu] s t := by
  obtain ⟨hreach, hskip⟩ := reached_of hr
  have hplace := placed_of_liesAt hat
  have hdue : periodBeginDue p s = true := by
    simp only [periodBeginDue, ha, hplace, hreach]
  have hlead : leadOf s.tsu plan = some (⟨l, ps⟩, sec) := by
    simp only [leadOf, hplace, hskip, labelOf_eq, ← hl]
    rfl
  have hstart : startEntry s.tsu plan rest s.ptu.ports[p]
      = { s.ptu.ports[p] with armed := rest, progress := some ⟨plan, 0, 0⟩ } := by
    simp only [startEntry, hplace, hskip]
    rfl
  have ht : takePeriodBegin p s = notifyMeas p (.period (some (⟨l, ps⟩, sec)))
      (s.updPort p (startEntry s.tsu plan rest)) := by
    rw [takePeriodBegin, if_pos hdue, beginPeriod_cons ha, hlead]
  have hframe := takePeriodBegin_frame p s
  rw [ht] at hframe
  obtain ⟨hports, hsq, hfail⟩ := notifyMeas_ptu p (.period (some (⟨l, ps⟩, sec)))
    (s.updPort p (startEntry s.tsu plan rest))
  have hmeasuring : (s.updPort p (startEntry s.tsu plan rest)).ptu.ports[p].measuring
      = s.ptu.ports[p].measuring :=
    (congrArg PortEntry.measuring (updAt_self ..)).trans (startEntry_keeps ..).2
  refine ⟨_, congrArg Host.Outcome.next ht, ?_, fun a m hm hrec => ?_, fun hno => ?_, hsq, hfail, hframe⟩
  · rw [hports, ← hstart]
    rfl
  · exact notifyMeas_measured (hmeasuring.trans hm) hrec
  · rw [notifyMeas_unmeasured (hmeasuring.trans hno)]
    rfl

/-! ### PORT_EDGE (R121, R125, R126, R138) -/

theorem activeLevel_eq (p : Polarity) : activeLevel p = if p = .normal then .high else .low := by
  cases p <;> rfl

theorem idleLevel_eq (p : Polarity) : idleLevel p = if p = .normal then .low else .high := by
  cases p <;> rfl

theorem keepProgress_eq (pr : Progress) : keepProgress pr
    = if edgeCount pr.plan.settings ≤ pr.edge ∧ (pr.plan.settings.mode ≠ .timecode ∨ 141 ≤ pr.bit)
      then none else some pr := by
  unfold keepProgress progressDone
  refine if_congr ?_ rfl rfl
  rw [Bool.and_eq_true, Bool.or_eq_true, bne_iff_ne, decide_eq_true_iff, decide_eq_true_iff]

theorem emitEdge_eq (t : Tsu) (pr : Progress) (e : PortEntry) {sec ps : Nat} {act idle : PinLevel}
    (hplace : placed pr.plan (edgeOffset pr.plan.settings pr.edge) = (sec, ps))
    (hact : act = if pr.plan.settings.polarity = .normal then .high else .low)
    (hidle : idle = if pr.plan.settings.polarity = .normal then .low else .high) :
    emitEdge t pr e = { e with
      pin := if pr.edge % 2 = 0 then act else idle
      lastEdge := if pr.edge = 0 ∧ (pr.plan.settings.mode = .frequency ∨ act ≠ e.pin)
        then some ⟨if sec = t.second then t.label else t.prevLabel, ps⟩ else e.lastEdge
      progress := keepProgress { pr with edge := pr.edge + 1 } } := by
  have hlevel : edgeLevel pr.plan.settings pr.edge = if pr.edge % 2 = 0 then act else idle := by
    rw [edgeLevel, activeLevel_eq, idleLevel_eq, ← hact, ← hidle]
  unfold emitEdge
  dsimp only
  rw [hlevel, hplace]
  have hcond : (pr.edge == 0 && (pr.plan.settings.mode == .frequency
      || (if pr.edge % 2 = 0 then act else idle) != e.pin)) = true
        ↔ pr.edge = 0 ∧ (pr.plan.settings.mode = .frequency ∨ act ≠ e.pin) := by
    by_cases h0 : pr.edge = 0
    · simp [h0]
    · simp [h0]
  simp only [hcond]
  rfl

/-- PORT_EDGE (R121, R125, R126, R138). -/
theorem portEdge_told (s : State) (p : Port) (e : PortEntry) (pr : Progress) (x sec ps : Nat) (l : Label)
    (act idle : PinLevel) (he : e = s.ptu.ports[p]) (hpr : e.progress = some pr)
    (hedge : EdgeOffset pr.plan.settings pr.edge x) (hat : LiesAt pr.plan x sec ps)
    (hr : Reached s.tsu sec ps) (hl : l = (if sec = s.tsu.second then s.tsu.label else s.tsu.prevLabel))
    (hact : act = if pr.plan.settings.polarity = .normal then .high else .low)
    (hidle : idle = if pr.plan.settings.polarity = .normal then .low else .high) :
    ∃ t, exec (.portEdge p) s = .next t
    ∧ t.ptu = { s.ptu with ports := s.ptu.ports.set p { e with
        pin := if pr.edge % 2 = 0 then act else idle
        lastEdge := if pr.edge = 0 ∧ (pr.plan.settings.mode = .frequency ∨ act ≠ e.pin)
          then some ⟨l, ps⟩ else e.lastEdge
        progress := t.ptu.ports[p].progress } }
    ∧ ((∀ y, ¬EdgeOffset pr.plan.settings (pr.edge + 1) y) →
        pr.plan.settings.mode ≠ .timecode ∨ 141 ≤ pr.bit → t.ptu.ports[p].progress = none)
    ∧ ((∃ y, EdgeOffset pr.plan.settings (pr.edge + 1) y)
        ∨ pr.plan.settings.mode = .timecode ∧ pr.bit < 141 →
        t.ptu.ports[p].progress = some { pr with edge := pr.edge + 1 })
    ∧ KeepsAllBut [.ptu] s t := by
  subst he
  obtain ⟨hcount, rfl⟩ := edgeOffset_iff.mp hedge
  obtain ⟨hreach, hskip⟩ := reached_of hr
  have hplace := placed_of_liesAt hat
  have ht : takePortEdge p s = s.updPort p (emitEdge s.tsu pr) := by
    simp only [takePortEdge, hpr, if_pos hcount, hplace, hskip, hreach]
    rfl
  have hframe := takePortEdge_frame p s
  rw [ht] at hframe
  have hemit := emitEdge_eq s.tsu pr s.ptu.ports[p] hplace hact hidle
  rw [← hl] at hemit
  have hself : (s.updPort p (emitEdge s.tsu pr)).ptu.ports[p] = emitEdge s.tsu pr s.ptu.ports[p] :=
    updAt_self ..
  have hprogress : (s.updPort p (emitEdge s.tsu pr)).ptu.ports[p].progress
      = keepProgress { pr with edge := pr.edge + 1 } := by rw [hself, hemit]
  refine ⟨_, congrArg Host.Outcome.next ht, ?_, fun hno hbit => ?_, fun hmore => ?_, hframe⟩
  · rw [hprogress, ← hemit]
    rfl
  · rw [hprogress, keepProgress_eq]
    exact if_pos ⟨no_edge_iff.mp hno, hbit⟩
  · rw [hprogress, keepProgress_eq]
    refine if_neg fun h => ?_
    obtain hmore | ⟨hmode, hbit⟩ := hmore
    · exact absurd (exists_edge_iff.mp hmore) (Nat.not_lt.mpr h.1)
    · exact h.2.elim (fun h => h hmode) fun h => absurd hbit (Nat.not_lt.mpr h)

/-! ### SITE_TIME_MESSAGE (R127, R128, R135) -/

theorem messageBit_eq {bytes : List Byte} {j : Nat} {v : Bool} (h : LineBit bytes j v) :
    messageBit bytes j = v := by
  obtain ⟨h0, h9, hdata⟩ := h
  unfold messageBit
  by_cases hz : j % 10 = 0
  · rw [if_pos hz, h0 hz]
  · rw [if_neg hz]
    by_cases hn : j % 10 = 9
    · rw [if_pos hn, h9 hn]
    · rw [if_neg hn, hdata (by omega) (by omega)]

theorem bitDue_iff {t : Tsu} {pr : Progress} : bitDue t pr = true ↔ pr.plan.settings.mode = .timecode
    ∧ pr.bit ≤ 140 ∧ reached t (placed pr.plan (bitOffset pr.plan.settings.baud pr.bit)).1
      (placed pr.plan (bitOffset pr.plan.settings.baud pr.bit)).2 = true := by
  unfold bitDue
  dsimp only
  rw [Bool.and_eq_true, Bool.and_eq_true, beq_iff_eq, decide_eq_true_iff, and_assoc]

/-- A message not sent to its end keeps its period in progress. -/
theorem keepProgress_sending {pr : Progress} (hm : pr.plan.settings.mode = .timecode) (hb : pr.bit < 141) :
    keepProgress pr = some pr := by
  rw [keepProgress_eq]
  exact if_neg fun h => h.2.elim (fun h => h hm) fun h => absurd hb (Nat.not_lt.mpr h)

/-- A message sent, or not sent at all, leaves its period once the edges have been emitted. -/
theorem keepProgress_sent {pr : Progress} (hm : pr.plan.settings.mode = .timecode) (hb : pr.bit = 141) :
    keepProgress pr = if 2 ≤ pr.edge then none else some pr := by
  have h2 : edgeCount pr.plan.settings = 2 := by
    unfold edgeCount
    rw [hm]
  rw [keepProgress_eq, h2]
  exact if_congr (and_iff_left (.inr hb.ge)) rfl rfl

/-- The entry with bit `j` of the message on the line. -/
def onLine (pr : Progress) (m : SiteMessage) (j : Nat) (e : PortEntry) : PortEntry :=
  { e with
    pin := bitLevel pr.plan.settings.polarity (messageBit m.bytes j)
    progress := some { pr with bit := j + 1 } }

theorem sendBit_onLine {pr : Progress} (m : SiteMessage) {e : PortEntry} {b : Nat}
    (hmode : pr.plan.settings.mode = .timecode) (hb : b < 140) :
    sendBit { pr with bit := b } m e = onLine pr m b e := by
  have hkeep := keepProgress_sending (pr := { pr with bit := b + 1 }) hmode (by dsimp only; omega)
  refine (if_pos hb).trans ?_
  dsimp only
  rw [hkeep]
  rfl

section Message

variable {t : Tsu} {pr : Progress} {m : SiteMessage} (hmode : pr.plan.settings.mode = .timecode)
  (hmsg : pr.plan.message = some m)

theorem sendReached_stops {n : Nat} {e : PortEntry} (he : e.progress = some pr) (hd : bitDue t pr = false) :
    sendReached t n e = e := by
  cases n with
  | zero => rfl
  | succ n =>
    rw [sendReached, he]
    dsimp only
    split
    · rfl
    · rw [hd]; rfl

include hmsg

theorem sendReached_sends {n : Nat} {e : PortEntry} (he : e.progress = some pr) (hd : bitDue t pr = true) :
    sendReached t (n + 1) e = sendReached t n (sendBit pr m e) := by
  rw [sendReached, he]
  dsimp only
  rw [hmsg]
  dsimp only
  rw [if_pos hd]

include hmode

/-- The bits from `b` to `b + d` are sent where each is due and the one after them is not. -/
theorem sendReached_run {d n b : Nat} {e : PortEntry} (he : e.progress = some { pr with bit := b })
    (hn : d < n) (hb : b + d < 140)
    (hdue : ∀ k, b ≤ k → k ≤ b + d → bitDue t { pr with bit := k } = true)
    (hstop : bitDue t { pr with bit := b + d + 1 } = false) :
    sendReached t n e = onLine pr m (b + d) e := by
  induction d generalizing n b e with
  | zero =>
    obtain ⟨n, rfl⟩ : ∃ k, n = k + 1 := ⟨n - 1, by omega⟩
    rw [sendReached_sends (pr := { pr with bit := b }) hmsg he (hdue b (by omega) (by omega)),
      sendBit_onLine m hmode (by omega)]
    exact sendReached_stops (pr := { pr with bit := b + 1 }) rfl hstop
  | succ d ih =>
    obtain ⟨n, rfl⟩ : ∃ k, n = k + 1 := ⟨n - 1, by omega⟩
    have hnext : b + 1 + d = b + (d + 1) := by omega
    rw [sendReached_sends (pr := { pr with bit := b }) hmsg he (hdue b (by omega) (by omega)),
      sendBit_onLine m hmode (by omega),
      ih (b := b + 1) (e := onLine pr m b e) rfl (by omega) (by omega)
        (fun k h1 h2 => hdue k (by omega) (by omega)) (by rw [hnext]; exact hstop), hnext]
    rfl

end Message

section TakeMessage

variable {s : State} {p : Port} {pr : Progress} (hpr : s.ptu.ports[p].progress = some pr)

include hpr

theorem takeMessage_sends (h : ¬(pr.plan.settings.mode = .timecode ∧ pr.bit = 0
      ∧ skipped s.tsu (placed pr.plan (bitOffset pr.plan.settings.baud 0)) = true)) :
    takeMessage p s = { s with ptu := { s.ptu with
      ports := s.ptu.ports.set p (sendReached s.tsu 141 s.ptu.ports[p]) } } := by
  simp only [takeMessage, hpr, if_neg h]
  rfl

theorem takeMessage_skips (h : pr.plan.settings.mode = .timecode ∧ pr.bit = 0
      ∧ skipped s.tsu (placed pr.plan (bitOffset pr.plan.settings.baud 0)) = true) :
    takeMessage p s = { s with ptu := { s.ptu with
      ports := s.ptu.ports.set p
        { s.ptu.ports[p] with progress := keepProgress { pr with bit := 141 } } } } := by
  simp only [takeMessage, hpr, if_pos h]
  rfl

end TakeMessage

/-- SITE_TIME_MESSAGE (R127, R128, R135). -/
theorem siteTimeMessage_told (s : State) (p : Port) (e : PortEntry) (pr : Progress) (m : SiteMessage)
    (baud : Nat) (act idle : PinLevel) (he : e = s.ptu.ports[p]) (hpr : e.progress = some pr)
    (hmode : pr.plan.settings.mode = .timecode) (hbaud : baud = pr.plan.settings.baud)
    (hmsg : pr.plan.message = some m)
    (hact : act = if pr.plan.settings.polarity = .normal then .high else .low)
    (hidle : idle = if pr.plan.settings.polarity = .normal then .low else .high) :
    (∀ (j sec ps : Nat) (v : Bool), pr.bit ≤ j → j < 140 →
      (∀ k, pr.bit ≤ k → k ≤ j → ∃ sec' ps', LiesAt pr.plan (messagePoint baud k) sec' ps'
        ∧ Reached s.tsu sec' ps') →
      LiesAt pr.plan (messagePoint baud (j + 1)) sec ps →
      ¬(sec < s.tsu.second ∨ sec = s.tsu.second ∧ s.tsu.hold = none ∧ ps ≤ s.tsu.frac) →
      LineBit m.bytes j v →
      exec (.siteTimeMessage p) s = .next { s with ptu := { s.ptu with
        ports := s.ptu.ports.set p { e with
          pin := if v then idle else act
          progress := some { pr with bit := j + 1 } } } })
    ∧ (∀ sec ps, pr.bit = 140 → LiesAt pr.plan (messagePoint baud 140) sec ps →
      Reached s.tsu sec ps → exec (.siteTimeMessage p) s = .next { s with ptu := { s.ptu with
        ports := s.ptu.ports.set p { e with
          lastMessage := some m.label
          progress := if 2 ≤ pr.edge then none else some { pr with bit := 141 } } } })
    ∧ (∀ ps, pr.bit = 0 → LiesAt pr.plan (messagePoint baud 0) s.tsu.second ps →
      ps < s.tsu.skipTo → exec (.siteTimeMessage p) s = .next { s with ptu := { s.ptu with
        ports := s.ptu.ports.set p { e with
          progress := if 2 ≤ pr.edge then none else some { pr with bit := 141 } } } }) := by
  subst he hbaud
  have hoff : ∀ k, bitOffset pr.plan.settings.baud k = messagePoint pr.plan.settings.baud k := fun _ => rfl
  refine ⟨fun j sec ps v hj hj140 hreached hat hnot hline => ?_, fun sec ps hbit hat hr => ?_,
    fun ps hbit hat hps => ?_⟩
  · refine congrArg Host.Outcome.next ((takeMessage_sends hpr fun ⟨_, h0, hs⟩ => ?_).trans ?_)
    · obtain ⟨sec', ps', hat', hr'⟩ := hreached 0 (by omega) (Nat.zero_le _)
      rw [hoff, placed_of_liesAt hat', (reached_of hr').2] at hs
      cases hs
    · have hdue : ∀ k, pr.bit ≤ k → k ≤ pr.bit + (j - pr.bit) →
          bitDue s.tsu { pr with bit := k } = true := fun k h1 h2 => by
        obtain ⟨sec', ps', hat', hr'⟩ := hreached k h1 (by omega)
        refine bitDue_iff.mpr ⟨hmode, by dsimp only; omega, ?_⟩
        rw [hoff, placed_of_liesAt hat']
        exact (reached_of hr').1
      have hstop : bitDue s.tsu { pr with bit := pr.bit + (j - pr.bit) + 1 } = false := by
        rw [← Bool.not_eq_true, bitDue_iff, hoff]
        dsimp only
        rw [Nat.add_sub_cancel' hj, placed_of_liesAt hat, reached_iff]
        exact fun h => hnot h.2.2
      have hrun := sendReached_run (t := s.tsu) (d := j - pr.bit) (n := 141) hmode hmsg hpr (by omega) (by omega)
        hdue hstop
      rw [hrun, Nat.add_sub_cancel' hj, onLine, messageBit_eq hline, bitLevel, idleLevel_eq, activeLevel_eq,
        ← hact, ← hidle]
  · refine congrArg Host.Outcome.next ((takeMessage_sends hpr fun ⟨_, h0, _⟩ => ?_).trans ?_)
    · rw [h0] at hbit
      cases hbit
    · have hdue : bitDue s.tsu pr = true := by
        refine bitDue_iff.mpr ⟨hmode, hbit.le, ?_⟩
        rw [hbit, hoff, placed_of_liesAt hat]
        exact (reached_of hr).1
      have hsent : sendBit pr m s.ptu.ports[p] = { s.ptu.ports[p] with
          lastMessage := some m.label
          progress := if 2 ≤ pr.edge then none else some { pr with bit := 141 } } := by
        rw [← keepProgress_sent (pr := { pr with bit := 141 }) hmode rfl]
        refine (if_neg (by rw [hbit]; decide)).trans ?_
        rw [hbit]
      have hend : ∀ n, sendReached s.tsu n (sendBit pr m s.ptu.ports[p]) = sendBit pr m s.ptu.ports[p] := by
        intro n
        rw [hsent]
        by_cases h2 : 2 ≤ pr.edge
        · rw [if_pos h2]
          cases n <;> rfl
        · rw [if_neg h2]
          refine sendReached_stops (pr := { pr with bit := 141 }) rfl ?_
          rw [← Bool.not_eq_true, bitDue_iff]
          exact fun h => absurd h.2.1 (by dsimp only; omega)
      rw [sendReached_sends hmsg hpr hdue, hend, hsent]
  · refine congrArg Host.Outcome.next ((takeMessage_skips hpr ⟨hmode, hbit, ?_⟩).trans ?_)
    · rw [hoff, placed_of_liesAt hat, skipped_iff]
      exact ⟨rfl, hps⟩
    · rw [keepProgress_sent (pr := { pr with bit := 141 }) hmode rfl]

/-! ### STEP_RESUMPTION (R128) -/

theorem dropSkippedMessage_keeps (t : Tsu) (pr : Progress) :
    (dropSkippedMessage t pr).plan = pr.plan ∧ (dropSkippedMessage t pr).edge = pr.edge := by
  unfold dropSkippedMessage
  split <;> exact ⟨rfl, rfl⟩

/-- The level that the last skipped edge leaves (R128). -/
theorem edgeLevel_skipped {p : PortSettings} {n : Nat} (hn : 0 < n) :
    edgeLevel p (n - 1) = if (n % 2 = 1 ↔ p.polarity = .normal) then .high else .low := by
  unfold edgeLevel
  by_cases hodd : n % 2 = 1
  · rw [if_pos (by omega), activeLevel_eq]
    exact if_congr (by simp [hodd]) rfl rfl
  · rw [if_neg (by omega), idleLevel_eq]
    cases p.polarity <;> simp [hodd]

/-- A resumption that skips edges: the pin, the leading edge recorded, and the edges left (R128). -/
theorem resumePeriod_skips {t : Tsu} {pr : Progress} {e x : PortEntry} {n : Nat} {level : PinLevel}
    (hn : edgesBeforeResume t pr.plan = n) (hlt : pr.edge < n)
    (hlevel : level = if (n % 2 = 1 ↔ pr.plan.settings.polarity = .normal) then .high else .low)
    (hx : x = resumePeriod t pr e) :
    x = { e with
      pin := level
      lastEdge := if pr.edge = 0 ∧ n = 1 ∧ pr.plan.settings.mode ≠ .frequency ∧ level ≠ e.pin
        then some (resumption t) else e.lastEdge
      progress := x.progress }
    ∧ (pr.plan.settings.mode ≠ .timecode →
      (x.progress = none ↔ ∀ y, ¬EdgeOffset pr.plan.settings n y))
    ∧ ∀ y, x.progress = some y → y.plan = pr.plan ∧ y.edge = n := by
  obtain ⟨hplan, hedge⟩ := dropSkippedMessage_keeps t { pr with edge := n }
  have hmax : max pr.edge (edgesBeforeResume t pr.plan) = n := by omega
  have hlev : edgeLevel pr.plan.settings (n - 1) = level := (edgeLevel_skipped (by omega)).trans hlevel.symm
  have hcond : (pr.edge == 0 && n == 1 && pr.plan.settings.mode != .frequency && level != e.pin) = true
      ↔ pr.edge = 0 ∧ n = 1 ∧ pr.plan.settings.mode ≠ .frequency ∧ level ≠ e.pin := by
    simp [and_assoc]
  have hres : resumePeriod t pr e = { e with
      pin := level
      lastEdge := if pr.edge = 0 ∧ n = 1 ∧ pr.plan.settings.mode ≠ .frequency ∧ level ≠ e.pin
        then some (resumption t) else e.lastEdge
      progress := keepProgress (dropSkippedMessage t { pr with edge := n }) } := by
    simp only [resumePeriod, hmax, if_pos hlt, hlev, hcond]
  have hprog : x.progress = keepProgress (dropSkippedMessage t { pr with edge := n }) := by rw [hx, hres]
  refine ⟨by rw [hprog, hx, hres], fun hm => ?_, fun y hy => ?_⟩
  · rw [hprog, keepProgress_eq, no_edge_iff, hplan, hedge]
    dsimp only
    by_cases hle : edgeCount pr.plan.settings ≤ n
    · exact iff_of_true (if_pos ⟨hle, .inl hm⟩) hle
    · rw [if_neg fun h => hle h.1]
      exact iff_of_false nofun hle
  · rw [hprog] at hy
    unfold keepProgress at hy
    split at hy <;> cases hy
    exact ⟨hplan, hedge⟩

/-- A resumption touches its own port and that port's record alone. -/
theorem resumePort_apart (p : Port) (s : State) :
    (∀ q, q ≠ p → (resumePort p s).ptu.ports[q] = s.ptu.ports[q])
    ∧ ∀ a : AuxId, s.ptu.ports[p].measuring ≠ some a → (resumePort p s).ptu.meas[a] = s.ptu.meas[a] := by
  refine resumePort_cases (P := fun t : State => (∀ q, q ≠ p → t.ptu.ports[q] = s.ptu.ports[q])
    ∧ ∀ a : AuxId, s.ptu.ports[p].measuring ≠ some a → t.ptu.meas[a] = s.ptu.meas[a]) p s ?_
    (fun pr _ => ⟨fun q hq => updAt_ne _ _ (Ne.symm hq), fun _ _ => rfl⟩) ⟨fun _ _ => rfl, fun _ _ => rfl⟩
  rcases ha : s.ptu.ports[p].armed with _ | ⟨plan, rest⟩
  · rw [beginPeriod_nil ha]
    exact ⟨fun _ _ => rfl, fun _ _ => rfl⟩
  · rw [beginPeriod_cons ha]
    refine ⟨fun q hq => ?_, fun a hne => ?_⟩
    · rw [notifyMeas_ports]
      exact updAt_ne _ _ (Ne.symm hq)
    · rw [notifyMeas_meas]
      refine if_neg fun h => hne ?_
      rw [← h]
      exact ((congrArg PortEntry.measuring (updAt_self ..)).trans (startEntry_keeps ..).2).symm

/-- Resuming other ports leaves a port, and its record, as they are. -/
theorem resumed_kept {ps : List Port} {p : Port} (hp : p ∉ ps) {a : AuxId} (s : State) :
    (ps.foldl (fun s q => resumePort q s) s).ptu.ports[p] = s.ptu.ports[p]
    ∧ ((∀ q, q ≠ p → s.ptu.ports[q].measuring ≠ some a) →
      (ps.foldl (fun s q => resumePort q s) s).ptu.meas[a] = s.ptu.meas[a]) := by
  induction ps generalizing s with
  | nil => exact ⟨rfl, fun _ => rfl⟩
  | cons q ps ih =>
    obtain ⟨hne, hps⟩ : p ≠ q ∧ p ∉ ps := ⟨fun h => hp (h ▸ List.mem_cons_self ..), fun h => hp
      (List.mem_cons_of_mem _ h)⟩
    obtain ⟨hports, hmeas⟩ := resumePort_apart q s
    obtain ⟨hclaims, -⟩ := resumePort_sameClaims q s
    obtain ⟨h1, h2⟩ := ih hps (resumePort q s)
    refine ⟨h1.trans (hports p hne), fun ho => (h2 fun x hx => ?_).trans (hmeas a (ho q hne.symm))⟩
    rw [hclaims x]
    exact ho x hx

/-- Over distinct ports each is resumed once, from the state it had. -/
theorem resumed_once {ps : List Port} (hps : ps.Nodup) {p : Port} (hp : p ∈ ps) (a : AuxId) (s : State) :
    ∃ u : State, u.tsu = s.tsu ∧ u.ptu.ports[p] = s.ptu.ports[p]
      ∧ (ps.foldl (fun s q => resumePort q s) s).ptu.ports[p] = (resumePort p u).ptu.ports[p]
      ∧ ((∀ q, q ≠ p → s.ptu.ports[q].measuring ≠ some a) → u.ptu.meas[a] = s.ptu.meas[a]
        ∧ (ps.foldl (fun s q => resumePort q s) s).ptu.meas[a] = (resumePort p u).ptu.meas[a]) := by
  induction ps generalizing s with
  | nil => cases hp
  | cons q ps ih =>
    obtain ⟨hq, hps⟩ := List.nodup_cons.mp hps
    obtain ⟨hports, hmeas⟩ := resumePort_apart q s
    obtain ⟨hclaims, -⟩ := resumePort_sameClaims q s
    by_cases hqp : q = p
    · subst hqp
      obtain ⟨h1, h2⟩ := resumed_kept hq (a := a) (resumePort q s)
      refine ⟨s, rfl, rfl, h1, fun ho => ⟨rfl, h2 fun x hx => ?_⟩⟩
      rw [hclaims x]
      exact ho x hx
    · obtain ⟨u, hu, hup, hfold, hrec⟩ := ih hps ((List.mem_cons.mp hp).resolve_left (Ne.symm hqp))
        (resumePort q s)
      refine ⟨u, hu.trans ((resumePort_frame q s).tsu_eq (by decide)), hup.trans (hports p (Ne.symm hqp)), hfold,
        fun ho => ?_⟩
      obtain ⟨hm1, hm2⟩ := hrec fun x hx => by rw [hclaims x]; exact ho x hx
      exact ⟨hm1.trans (hmeas a (ho q hqp)), hm2⟩

theorem resumePorts_once (p : Port) (a : AuxId) (s : State) :
    ∃ u : State, u.tsu = s.tsu ∧ u.ptu.ports[p] = s.ptu.ports[p]
      ∧ (resumePorts s).ptu.ports[p] = (resumePort p u).ptu.ports[p]
      ∧ ((∀ q, q ≠ p → s.ptu.ports[q].measuring ≠ some a) → u.ptu.meas[a] = s.ptu.meas[a]
        ∧ (resumePorts s).ptu.meas[a] = (resumePort p u).ptu.meas[a]) := by
  unfold resumePorts
  exact resumed_once (List.nodup_finRange 12) (List.mem_finRange p) a s

/-- A period whose beginning was skipped begins (R128). -/
theorem resumePort_begins {p : Port} {s : State} {plan : Plan} {rest : List Plan}
    (ha : s.ptu.ports[p].armed = plan :: rest) (hs : skipped s.tsu (placed plan 0) = true) :
    resumePort p s = notifyMeas p (.period (leadOf s.tsu plan)) (s.updPort p fun e =>
      resumePeriod s.tsu ⟨plan, 0, 0⟩ { e with armed := rest, progress := some ⟨plan, 0, 0⟩ }) := by
  have hbegin : resumePort p s = beginPeriod p s := by
    simp only [resumePort, ha, hs, if_true]
  have hstart : startEntry s.tsu plan rest = fun e =>
      resumePeriod s.tsu ⟨plan, 0, 0⟩ { e with armed := rest, progress := some ⟨plan, 0, 0⟩ } :=
    funext fun e => if_pos hs
  rw [hbegin, beginPeriod_cons ha, hstart]

/-- The period in progress passes its skipped edges (R128). -/
theorem resumePort_passes {p : Port} {s : State} {pr : Progress} (hpr : s.ptu.ports[p].progress = some pr)
    (ha : ∀ q rest, s.ptu.ports[p].armed = q :: rest → skipped s.tsu (placed q 0) = false)
    (hw : s.tsu.second ≤ (placed pr.plan (edgeOffset pr.plan.settings pr.edge)).1) :
    resumePort p s = s.updPort p (resumePeriod s.tsu pr) := by
  have hwait : (decide (pr.edge < edgeCount pr.plan.settings)
      && decide ((placed pr.plan (edgeOffset pr.plan.settings pr.edge)).1 < s.tsu.second)) = false := by
    rw [decide_eq_false (Nat.not_lt.mpr hw), Bool.and_false]
  rcases hq : s.ptu.ports[p].armed with _ | ⟨q, rest⟩
  · simp only [resumePort, hq, hpr, hwait]
    rfl
  · simp only [resumePort, hq, hpr, hwait, ha q rest hq]
    rfl

/-- A boundary with a positive step resumes every port, in the second that it begins (R128). -/
theorem positiveStep_resumes {s : State} {extra v : Nat} {w : PendingStep} (hd : s.tsu.due = some extra)
    (hs : s.tsu.step = some w) (hv : w.value = v) (hpos : 0 < v) :
    ∃ u : State, takeSecondBoundary s = resumePorts u ∧ u.ptu = s.ptu
      ∧ u.tsu = (takeSecondBoundary s).tsu ∧ u.tsu.second = s.tsu.second + 1 ∧ u.tsu.skipTo = v + extra := by
  have hpend : pendingValue s.tsu = v := (pendingValue_of_some hs).trans hv
  have hpos' : 0 < pendingValue s.tsu := by rw [hpend]; omega
  have ht : takeSecondBoundary s = resumePorts (pruneLog (boundaryDelivered extra s)) := by
    rw [takeSecondBoundary_eq hd, if_pos hpos', if_neg (by omega)]
  have htsu : (pruneLog (boundaryDelivered extra s)).tsu = (takeSecondBoundary s).tsu := by
    rw [ht]
    exact ((resumePorts_frame _).tsu_eq (by decide)).symm
  have hfields : (takeSecondBoundary s).tsu.second = s.tsu.second + 1
      ∧ (takeSecondBoundary s).tsu.skipTo = if 0 < pendingValue s.tsu then (pendingValue s.tsu).toNat + extra
        else 0 := by
    rw [takeSecondBoundary_tsu hd, secondBegun_tsu, startSecond_rest]
    exact ⟨rfl, rfl⟩
  obtain ⟨hsecond, hskip⟩ := hfields
  rw [if_pos hpos', hpend] at hskip
  refine ⟨_, ht, (boundaryDelivered_frame extra s).ptu_eq (by decide), htsu, ?_, ?_⟩
  · rw [htsu, hsecond]
  · rw [htsu, hskip]
    omega

section Resumption

variable {u : State} {p : Port} {e x : PortEntry} {pr : Progress} {n : Nat} {level : PinLevel}
  (hn : edgesBeforeResume u.tsu pr.plan = n) (hlt : pr.edge < n)
  (hlevel : level = if (n % 2 = 1 ↔ pr.plan.settings.polarity = .normal) then .high else .low)
  (he : e = u.ptu.ports[p]) (hx : x = (resumePort p u).ptu.ports[p])

include hn hlt hlevel he hx

/-- A port whose next period's beginning was skipped (R128, R138). -/
theorem resumePort_begins_told {rest : List Plan} {ps : Nat} (ha : e.armed = pr.plan :: rest)
    (hat : LiesAt pr.plan 0 u.tsu.second ps) (hps : ps < u.tsu.skipTo) (h0 : pr.edge = 0) :
    x = { e with
      armed := rest
      pin := level
      lastEdge := if n = 1 ∧ pr.plan.settings.mode ≠ .frequency ∧ level ≠ e.pin
        then some (resumption u.tsu) else e.lastEdge
      progress := x.progress }
    ∧ (pr.plan.settings.mode ≠ .timecode → (x.progress = none ↔ ∀ y, ¬EdgeOffset pr.plan.settings n y))
    ∧ (∀ y, x.progress = some y → y.plan = pr.plan ∧ y.edge = n)
    ∧ ∀ (a : AuxId) (m : DelayMeas), e.measuring = some a → u.ptu.meas[a] = some m →
      (resumePort p u).ptu.meas[a] = some { m with notices := m.notices
        ++ [.period (if n = 1 then some (resumption u.tsu, u.tsu.second) else none)] } := by
  subst he
  have hskip : skipped u.tsu (placed pr.plan 0) = true := by
    rw [placed_of_liesAt hat, skipped_iff]
    exact ⟨rfl, hps⟩
  have hbegin := resumePort_begins ha hskip
  have hentry : x = resumePeriod u.tsu ⟨pr.plan, 0, 0⟩
      { u.ptu.ports[p] with armed := rest, progress := some ⟨pr.plan, 0, 0⟩ } := by
    rw [hx, hbegin, notifyMeas_ports]
    exact updAt_self ..
  have hlead : leadOf u.tsu pr.plan = if n = 1 then some (resumption u.tsu, u.tsu.second) else none := by
    simp only [leadOf, hskip, hn, if_true]
  obtain ⟨hfields, hnone, hsome⟩ := resumePeriod_skips (pr := ⟨pr.plan, 0, 0⟩) hn (by dsimp only; omega)
    hlevel hentry
  refine ⟨?_, hnone, hsome, fun a m hm hrec => ?_⟩
  · refine hfields.trans ?_
    simp only [true_and]
  · have hself := (congrArg PortEntry.measuring (updAt_self u.ptu.ports p fun e =>
      resumePeriod u.tsu ⟨pr.plan, 0, 0⟩ { e with armed := rest, progress := some ⟨pr.plan, 0, 0⟩ })).trans
        (resumePeriod_keeps ..).2
    rw [hbegin, notifyMeas_meas, hlead]
    refine (if_pos (hself.trans hm)).trans ?_
    exact congrArg (Option.map _) hrec

/-- A port that passes the skipped edges of its period in progress (R128). -/
theorem resumePort_passes_told {y ps : Nat} (hpr : e.progress = some pr)
    (hedge : EdgeOffset pr.plan.settings pr.edge y) (hat : LiesAt pr.plan y u.tsu.second ps)
    (ha : ∀ q rest, e.armed = q :: rest → ∃ sec' ps', LiesAt q 0 sec' ps'
      ∧ ¬(sec' = u.tsu.second ∧ ps' < u.tsu.skipTo)) :
    x = { e with
      pin := level
      lastEdge := if pr.edge = 0 ∧ n = 1 ∧ pr.plan.settings.mode ≠ .frequency ∧ level ≠ e.pin
        then some (resumption u.tsu) else e.lastEdge
      progress := x.progress }
    ∧ (pr.plan.settings.mode ≠ .timecode → (x.progress = none ↔ ∀ y, ¬EdgeOffset pr.plan.settings n y))
    ∧ ∀ y, x.progress = some y → y.plan = pr.plan ∧ y.edge = n := by
  subst he
  obtain ⟨-, rfl⟩ := edgeOffset_iff.mp hedge
  have hpass := resumePort_passes hpr
    (fun q rest hq => by
      obtain ⟨sec', ps', hat', hnot⟩ := ha q rest hq
      rw [placed_of_liesAt hat', ← Bool.not_eq_true, skipped_iff]
      exact hnot)
    (by rw [placed_of_liesAt hat])
  refine resumePeriod_skips (e := u.ptu.ports[p]) hn hlt hlevel ?_
  rw [hx, hpass]
  exact updAt_self ..

end Resumption

section Resumptions

variable {u : State} {p : Port} {e x : PortEntry} {pr : Progress} {n : Nat} {level : PinLevel}
  (hn : edgesBeforeResume u.tsu pr.plan = n) (hlt : pr.edge < n)
  (hlevel : level = if (n % 2 = 1 ↔ pr.plan.settings.polarity = .normal) then .high else .low)
  (he : e = u.ptu.ports[p]) (hx : x = (resumePorts u).ptu.ports[p])

include hn hlt hlevel he hx

/-- Over all ports, a port whose next period's beginning was skipped (R128, R138, R141). -/
theorem resumePorts_begins_told {rest : List Plan} {ps : Nat} (ha : e.armed = pr.plan :: rest)
    (hat : LiesAt pr.plan 0 u.tsu.second ps) (hps : ps < u.tsu.skipTo) (h0 : pr.edge = 0) :
    x = { e with
      armed := rest
      pin := level
      lastEdge := if n = 1 ∧ pr.plan.settings.mode ≠ .frequency ∧ level ≠ e.pin
        then some (resumption u.tsu) else e.lastEdge
      progress := x.progress }
    ∧ (pr.plan.settings.mode ≠ .timecode → (x.progress = none ↔ ∀ y, ¬EdgeOffset pr.plan.settings n y))
    ∧ (∀ y, x.progress = some y → y.plan = pr.plan ∧ y.edge = n)
    ∧ ∀ (a : AuxId) (m : DelayMeas), ClaimLaw u → e.measuring = some a → u.ptu.meas[a] = some m →
      (resumePorts u).ptu.meas[a] = some { m with notices := m.notices
        ++ [.period (if n = 1 then some (resumption u.tsu, u.tsu.second) else none)] } := by
  have htold : ∀ r : State, r.tsu = u.tsu → r.ptu.ports[p] = u.ptu.ports[p] →
      (resumePorts u).ptu.ports[p] = (resumePort p r).ptu.ports[p] → _ := fun r hr hrp hports =>
    resumePort_begins_told (u := r) (by rw [hr]; exact hn) hlt hlevel (he.trans hrp.symm) (hx.trans hports) ha
      (by rw [hr]; exact hat) (by rw [hr]; exact hps) h0
  obtain ⟨r, hr, hrp, hports, -⟩ := resumePorts_once p 0 u
  obtain ⟨hfields, hnone, hsome, -⟩ := htold r hr hrp hports
  rw [hr] at hfields
  refine ⟨hfields, hnone, hsome, fun a m hlaw hm hrec => ?_⟩
  obtain ⟨r, hr, hrp, hports, hmeas⟩ := resumePorts_once p a u
  obtain ⟨-, -, -, hnotice⟩ := htold r hr hrp hports
  have hothers : ∀ q, q ≠ p → u.ptu.ports[q].measuring ≠ some a := fun q hq hqa => by
    have hmine := (hlaw p a).mp (he ▸ hm)
    rw [(hlaw q a).mp hqa] at hmine
    exact hq (Option.some.inj hmine)
  obtain ⟨hold, hnew⟩ := hmeas hothers
  rw [hnew, ← hr]
  exact hnotice a m hm (hold.trans hrec)

/-- Over all ports, a port that passes the skipped edges of its period in progress (R128). -/
theorem resumePorts_passes_told {y ps : Nat} (hpr : e.progress = some pr)
    (hedge : EdgeOffset pr.plan.settings pr.edge y) (hat : LiesAt pr.plan y u.tsu.second ps)
    (ha : ∀ q rest, e.armed = q :: rest → ∃ sec' ps', LiesAt q 0 sec' ps'
      ∧ ¬(sec' = u.tsu.second ∧ ps' < u.tsu.skipTo)) :
    x = { e with
      pin := level
      lastEdge := if pr.edge = 0 ∧ n = 1 ∧ pr.plan.settings.mode ≠ .frequency ∧ level ≠ e.pin
        then some (resumption u.tsu) else e.lastEdge
      progress := x.progress }
    ∧ (pr.plan.settings.mode ≠ .timecode → (x.progress = none ↔ ∀ y, ¬EdgeOffset pr.plan.settings n y))
    ∧ ∀ y, x.progress = some y → y.plan = pr.plan ∧ y.edge = n := by
  obtain ⟨r, hr, hrp, hports, -⟩ := resumePorts_once p 0 u
  rw [← hr] at hn hat ha ⊢
  exact resumePort_passes_told hn hlt hlevel (he.trans hrp.symm) (hx.trans hports) hpr hedge hat ha

end Resumptions

/-- Settles O49. -/
theorem portSignalFollowsThePlan : Obligations.PortSignalFollowsThePlan := by
  refine ⟨periodBegin_told, portEdge_told, siteTimeMessage_told, ?_⟩
  intro s extra w v at_ point hd hs hv hpos hlt hpoint
  obtain ⟨u, ht, hptu, htsu, hsecond, hskip⟩ := positiveStep_resumes hd hs hv hpos
  refine ⟨takeSecondBoundary s, rfl, fun hat p e x pr n level he hx hearlier hn hlevel => ?_⟩
  have hat' : at_ = resumption u.tsu := by
    rw [hat, resumption, hskip, htsu]
    rfl
  rw [← hptu] at he
  rw [ht] at hx
  have hcount : edgesBeforeResume u.tsu pr.plan = n := by
    refine edgesBeforeResume_eq ?_ hearlier
    rw [hpoint, hsecond, hskip]
    push_cast
    omega
  subst hat'
  refine ⟨fun rest ps ha hat0 hps h0 => ?_, fun y ps hpr hedge hlies hrest => ?_⟩
  · rw [← hsecond] at hat0 ⊢
    rw [← hskip] at hps
    obtain ⟨hfields, hnone, hsome, hnotice⟩ := resumePorts_begins_told hcount hn hlevel he hx ha hat0 hps h0
    refine ⟨hfields, hnone, hsome, fun a m hlaw hm hrec => ?_⟩
    rw [ht]
    exact hnotice a m (by unfold ClaimLaw; rw [hptu]; exact hlaw) hm (by rw [hptu]; exact hrec)
  · rw [← hsecond] at hlies hrest
    rw [← hskip] at hrest
    exact resumePorts_passes_told hcount hn hlevel he hx hpr hedge hlies hrest

end Sys2Proof.Machine
end
